-- ==== Sys2Proof/Word.lean ====
section
/-! DEFINITION. The register types: what the spec treats as bits and at which width (10_state.md R10). -/

namespace Sys2Proof

/-- An operand or result register: 80 bits (10_state.md R13). A packed value of a narrower format stands in it
zero-extended (R14). -/
abbrev Word80 := BitVec 80

/-- A control, flags or command register: 16 bits (10_state.md R16, R19, R23). -/
abbrev Word16 := BitVec 16

end Sys2Proof
end

