-- ==== Sys2Proof/Config.lean ====
section
/-! DEFINITION. What the spec makes a parameter of a model (00_scope.md R5, 93_implementation_defined.md U9, U10,
U11, U15), the instance the spec fixes, and the one free value. -/

namespace Sys2Proof.Config

/-- The parameters that 93_implementation_defined.md Part 1 treats as `parameter` (log entry 8). Every core
function takes them as an argument, so that a claim can be stated for every value of them. -/
structure Params where
  /-- INT_INDEFINITE(32), the sentinel of an invalid conversion to `W` (49_float_to_int.md R223, U9). -/
  intIndefiniteW : BitVec 32
  /-- INT_INDEFINITE(64), the sentinel of an invalid conversion to `L` (R223, U9). -/
  intIndefiniteL : BitVec 64
  /-- DEFAULT_NAN(S) (40_codec.md R71, U10). -/
  defaultNaNS : BitVec 32
  /-- DEFAULT_NAN(D) (R71, U10). -/
  defaultNaND : BitVec 64
  /-- DEFAULT_NAN(X) (R71, U10). -/
  defaultNaNX : BitVec 80
  /-- UNDERFLOW_NEEDS_INEXACT: an exact subnormal result raises no `underflow` (41_rounder.md R98, U11). -/
  underflowNeedsInexact : Bool
  /-- HAS_CMP: command group 1 is present (30_encoding.md R47, U15). -/
  hasCmp : Bool
  deriving DecidableEq, Repr

/-- The instance this spec fixes: the values of 00_scope.md R5, 40_codec.md R71 and 49_float_to_int.md R223.
DESIGN CHOICE of the spec (its D14, D17, D22, D27); log entry 8. -/
def fpe1 : Params where
  intIndefiniteW := 0x80000000#32
  intIndefiniteL := 0x8000000000000000#64
  defaultNaNS := 0xFFC00000#32
  defaultNaND := 0xFFF8000000000000#64
  defaultNaNX := 0xFFFFC000000000000000#80
  underflowNeedsInexact := true
  hasCmp := true

/-- Free value: what a host read of operand register `n` returns while that register holds no value. The spec
allows the read (30_encoding.md R40) and gives the register 'no value' (10_state.md R27, R29); nothing
constrains this number. DESIGN CHOICE, log entry 4. -/
opaque unwrittenOperand : Nat → BitVec 80

end Sys2Proof.Config
end

