-- ==== Sys2Proof/Syntax.lean ====
section
/-! DEFINITION. The command set (one constructor per row of the opcode table, 30_encoding.md R59), the type codes,
and the host's transactions (R41, R56). -/

namespace Sys2Proof

/-- The three packed formats (40_codec.md R60): binary32, binary64, extended80. -/
inductive Fmt where
  | S
  | D
  | X
  deriving DecidableEq, Repr

/-- The two signed integer types (30_encoding.md R43, 48_converter.md R214): 32 and 64 bits. -/
inductive IntTy where
  | W
  | L
  deriving DecidableEq, Repr

/-- The 78 commands of FPE-1 (30_encoding.md R59). No command carries an operand: operands are always `OPA` and
`OPB`, the result always `RES` (R54, R55). -/
inductive Instr where
  -- Group 0, ARITH (30_encoding.md R45)
  /-- FADD.S, word 0x0000 (R116). -/
  | faddS
  /-- FADD.D, word 0x0011 (R117). -/
  | faddD
  /-- FADD.X, word 0x0022 (R118). -/
  | faddX
  /-- FSUB.S, word 0x0100 (R119). -/
  | fsubS
  /-- FSUB.D, word 0x0111 (R120). -/
  | fsubD
  /-- FSUB.X, word 0x0122 (R121). -/
  | fsubX
  /-- FMUL.S, word 0x0200 (R128). -/
  | fmulS
  /-- FMUL.D, word 0x0211 (R129). -/
  | fmulD
  /-- FMUL.X, word 0x0222 (R130). -/
  | fmulX
  /-- FDIV.S, word 0x0300 (R138). -/
  | fdivS
  /-- FDIV.D, word 0x0311 (R139). -/
  | fdivD
  /-- FDIV.X, word 0x0322 (R140). -/
  | fdivX
  /-- FSQRT.S, word 0x0400 (R148). -/
  | fsqrtS
  /-- FSQRT.D, word 0x0411 (R149). -/
  | fsqrtD
  /-- FSQRT.X, word 0x0422 (R150). -/
  | fsqrtX
  /-- FRINT.S, word 0x0500 (R158). -/
  | frintS
  /-- FRINT.D, word 0x0511 (R159). -/
  | frintD
  /-- FRINT.X, word 0x0522 (R160). -/
  | frintX
  -- Group 1, CMP (R46)
  /-- FEQ.S, word 0x100F (R170). -/
  | feqS
  /-- FEQ.D, word 0x101F (R171). -/
  | feqD
  /-- FEQ.X, word 0x102F (R172). -/
  | feqX
  /-- FLT.S, word 0x110F (R173). -/
  | fltS
  /-- FLT.D, word 0x111F (R174). -/
  | fltD
  /-- FLT.X, word 0x112F (R175). -/
  | fltX
  /-- FLE.S, word 0x120F (R176). -/
  | fleS
  /-- FLE.D, word 0x121F (R177). -/
  | fleD
  /-- FLE.X, word 0x122F (R178). -/
  | fleX
  /-- FUN.S, word 0x130F (R179). -/
  | funS
  /-- FUN.D, word 0x131F (R180). -/
  | funD
  /-- FUN.X, word 0x132F (R181). -/
  | funX
  /-- FEQS.S, word 0x140F (R182). -/
  | feqsS
  /-- FEQS.D, word 0x141F (R183). -/
  | feqsD
  /-- FEQS.X, word 0x142F (R184). -/
  | feqsX
  /-- FLTS.S, word 0x150F (R185). -/
  | fltsS
  /-- FLTS.D, word 0x151F (R186). -/
  | fltsD
  /-- FLTS.X, word 0x152F (R187). -/
  | fltsX
  /-- FLES.S, word 0x160F (R188). -/
  | flesS
  /-- FLES.D, word 0x161F (R189). -/
  | flesD
  /-- FLES.X, word 0x162F (R190). -/
  | flesX
  /-- FUNS.S, word 0x170F (R191). -/
  | funsS
  /-- FUNS.D, word 0x171F (R192). -/
  | funsD
  /-- FUNS.X, word 0x172F (R193). -/
  | funsX
  /-- FCMP.S, word 0x180F (R194). -/
  | fcmpS
  /-- FCMP.D, word 0x181F (R195). -/
  | fcmpD
  /-- FCMP.X, word 0x182F (R196). -/
  | fcmpX
  /-- FCMPS.S, word 0x190F (R197). -/
  | fcmpsS
  /-- FCMPS.D, word 0x191F (R198). -/
  | fcmpsD
  /-- FCMPS.X, word 0x192F (R199). -/
  | fcmpsX
  -- Group 2, CVT_FF (R48)
  /-- FCVT.D.S, word 0x2001 (R208). -/
  | fcvtDS
  /-- FCVT.X.S, word 0x2002 (R209). -/
  | fcvtXS
  /-- FCVT.S.D, word 0x2010 (R211). -/
  | fcvtSD
  /-- FCVT.X.D, word 0x2012 (R210). -/
  | fcvtXD
  /-- FCVT.S.X, word 0x2020 (R212). -/
  | fcvtSX
  /-- FCVT.D.X, word 0x2021 (R213). -/
  | fcvtDX
  -- Group 3, CVT_IF (R49)
  /-- FCVT.S.W, word 0x3080 (R216). -/
  | fcvtSW
  /-- FCVT.D.W, word 0x3081 (R217). -/
  | fcvtDW
  /-- FCVT.X.W, word 0x3082 (R218). -/
  | fcvtXW
  /-- FCVT.S.L, word 0x3090 (R219). -/
  | fcvtSL
  /-- FCVT.D.L, word 0x3091 (R220). -/
  | fcvtDL
  /-- FCVT.X.L, word 0x3092 (R221). -/
  | fcvtXL
  -- Group 4, CVT_FI (R50)
  /-- FCVT.W.S, word 0x4008 (R224). -/
  | fcvtWS
  /-- FCVT.L.S, word 0x4009 (R225). -/
  | fcvtLS
  /-- FCVT.W.D, word 0x4018 (R226). -/
  | fcvtWD
  /-- FCVT.L.D, word 0x4019 (R227). -/
  | fcvtLD
  /-- FCVT.W.X, word 0x4028 (R228). -/
  | fcvtWX
  /-- FCVT.L.X, word 0x4029 (R229). -/
  | fcvtLX
  /-- FCVTT.W.S, word 0x4108 (R230). -/
  | fcvttWS
  /-- FCVTT.L.S, word 0x4109 (R231). -/
  | fcvttLS
  /-- FCVTT.W.D, word 0x4118 (R232). -/
  | fcvttWD
  /-- FCVTT.L.D, word 0x4119 (R233). -/
  | fcvttLD
  /-- FCVTT.W.X, word 0x4128 (R234). -/
  | fcvttWX
  /-- FCVTT.L.X, word 0x4129 (R235). -/
  | fcvttLX
  -- Group 5, CODEC (R51)
  /-- FCLASS.S, word 0x500F (R81). -/
  | fclassS
  /-- FCLASS.D, word 0x501F (R82). -/
  | fclassD
  /-- FCLASS.X, word 0x502F (R83). -/
  | fclassX
  /-- FSNAN.S, word 0x510F (R84). -/
  | fsnanS
  /-- FSNAN.D, word 0x511F (R85). -/
  | fsnanD
  /-- FSNAN.X, word 0x512F (R86). -/
  | fsnanX
  deriving DecidableEq, Repr

/-- One event that reaches the block (30_encoding.md R41, R56, R57; 70_reset_and_hazards.md R260). The value of a
write is carried at 80 bits; a 16-bit register takes the low 16 (log entry 5). -/
inductive HostEvent where
  /-- `WR n, v`: write value `v` to register number `n`; `n = 5` triggers a command (R40, R44). -/
  | wr (n : Nat) (v : Word80)
  /-- `RD n`: read register number `n` (R40, R41). -/
  | rd (n : Nat)
  /-- `WR n, <value read>`: the second transaction of MOVR, a write of the value the host last read (R57; log
  entry 7). -/
  | wrRead (n : Nat)
  /-- Reset, the only event besides host transactions (70_reset_and_hazards.md R260). -/
  | reset
  deriving DecidableEq, Repr

end Sys2Proof
end

