-- ==== Sys2Proof/WellFormed.lean ====
section
/-! DEFINITION. The checks on syntax: parameters, commands, transactions, scripts, and the one check on CTRL. -/

namespace Sys2Proof

/-- Is the command in group 1, the comparison group (30_encoding.md R46, R47)? -/
def Instr.isCmp : Instr → Bool
  | .feqS | .feqD | .feqX | .fltS | .fltD | .fltX | .fleS | .fleD | .fleX | .funS | .funD | .funX => true
  | .feqsS | .feqsD | .feqsX | .fltsS | .fltsD | .fltsX | .flesS | .flesD | .flesX => true
  | .funsS | .funsD | .funsX | .fcmpS | .fcmpD | .fcmpX | .fcmpsS | .fcmpsD | .fcmpsX => true
  | .faddS | .faddD | .faddX | .fsubS | .fsubD | .fsubX | .fmulS | .fmulD | .fmulX => false
  | .fdivS | .fdivD | .fdivX | .fsqrtS | .fsqrtD | .fsqrtX | .frintS | .frintD | .frintX => false
  | .fcvtDS | .fcvtXS | .fcvtXD | .fcvtSD | .fcvtSX | .fcvtDX => false
  | .fcvtSW | .fcvtDW | .fcvtXW | .fcvtSL | .fcvtDL | .fcvtXL => false
  | .fcvtWS | .fcvtLS | .fcvtWD | .fcvtLD | .fcvtWX | .fcvtLX => false
  | .fcvttWS | .fcvttLS | .fcvttWD | .fcvttLD | .fcvttWX | .fcvttLX => false
  | .fclassS | .fclassD | .fclassX | .fsnanS | .fsnanD | .fsnanX => false

/-- A command is well formed for a parameter set when its group is present (R47). Commands have no operands, so
nothing else can be wrong with one. -/
def Instr.wf (P : Config.Params) (i : Instr) : Bool := P.hasCmp || !i.isCmp

/-- Each DEFAULT_NAN is a quiet NaN of its format: exponent all ones, quiet bit set, and for extended80 the
integer bit set (93_implementation_defined.md U10, 40_codec.md R69, R71). -/
def Config.Params.wf (P : Config.Params) : Bool :=
  P.defaultNaNS &&& 0x7FC00000#32 == 0x7FC00000#32 &&
  P.defaultNaND &&& 0x7FF8000000000000#64 == 0x7FF8000000000000#64 &&
  P.defaultNaNX &&& 0x7FFFC000000000000000#80 == 0x7FFFC000000000000000#80

/-- The one well-formedness check on CTRL: its PC field is not the reserved code 1 (10_state.md R17). -/
def ctrlWf (ctrl : Word16) : Bool := ctrl.extractLsb' 2 2 != 1#2

/-- A transaction is well formed when it names a register that exists and may be accessed that way
(30_encoding.md R40), its value fits the register (10_state.md R28), and a write of a value read goes to an
operand register, as MOVR's does (R57). -/
def HostEvent.wf : HostEvent → Bool
  | .wr n v => n == 0 || n == 1 || ((n == 3 || n == 4 || n == 5) && v.toNat < 2 ^ 16)
  | .rd n => n < 5
  | .wrRead n => n < 2
  | .reset => true

/-- A script is well formed when every transaction is (30_encoding.md R56). -/
def scriptWf (es : List HostEvent) : Bool := es.all HostEvent.wf

end Sys2Proof
end

