-- ==== Sys2Proof/Decode.lean ====
section
/-! DEFINITION. The decoder of 30_encoding.md R58, total on all 65536 command words and rejecting by name (R52);
after it the encoder, and every constructor's word written out from R59. -/

namespace Sys2Proof

/-- Why a 16-bit word is reserved (30_encoding.md R52). -/
inductive Reserved where
  /-- `GRP` 6 to 15. -/
  | group
  /-- Group 1 while HAS_CMP = 0 (R47). -/
  | groupAbsent
  /-- A reserved `FN` in the group. -/
  | function
  /-- `SRC` is a reserved type code, or not of the kind the group requires. -/
  | source
  /-- `DST` is a reserved type code, or not of the kind the group requires. -/
  | destination
  /-- `SRC != DST` in group 0. -/
  | formatsDiffer
  /-- `SRC == DST` in group 2. -/
  | formatsEqual
  deriving DecidableEq, Repr

/-- `SRC` or `DST` as a float type code: 0, 1, 2 (R43, `isF` of R58). -/
def fmtOfCode (t : BitVec 4) : Option Fmt :=
  if t = 0#4 then some .S else if t = 1#4 then some .D else if t = 2#4 then some .X else none

/-- `SRC` or `DST` as an integer type code: 8, 9 (R43, `isI` of R58). -/
def intOfCode (t : BitVec 4) : Option IntTy :=
  if t = 8#4 then some .W else if t = 9#4 then some .L else none

/-- Choose by format. -/
def byFmt (f : Fmt) (s d x : Instr) : Instr :=
  match f with
  | .S => s
  | .D => d
  | .X => x

/-- Group 0 (R45): function and format. -/
def arithInstr (fn : BitVec 4) (f : Fmt) : Option Instr :=
  match fn.toNat with
  | 0 => some (byFmt f .faddS .faddD .faddX)
  | 1 => some (byFmt f .fsubS .fsubD .fsubX)
  | 2 => some (byFmt f .fmulS .fmulD .fmulX)
  | 3 => some (byFmt f .fdivS .fdivD .fdivX)
  | 4 => some (byFmt f .fsqrtS .fsqrtD .fsqrtX)
  | 5 => some (byFmt f .frintS .frintD .frintX)
  | _ => none

/-- Group 1 (R46): function and format. -/
def cmpInstr (fn : BitVec 4) (f : Fmt) : Option Instr :=
  match fn.toNat with
  | 0 => some (byFmt f .feqS .feqD .feqX)
  | 1 => some (byFmt f .fltS .fltD .fltX)
  | 2 => some (byFmt f .fleS .fleD .fleX)
  | 3 => some (byFmt f .funS .funD .funX)
  | 4 => some (byFmt f .feqsS .feqsD .feqsX)
  | 5 => some (byFmt f .fltsS .fltsD .fltsX)
  | 6 => some (byFmt f .flesS .flesD .flesX)
  | 7 => some (byFmt f .funsS .funsD .funsX)
  | 8 => some (byFmt f .fcmpS .fcmpD .fcmpX)
  | 9 => some (byFmt f .fcmpsS .fcmpsD .fcmpsX)
  | _ => none

/-- Group 2 (R48): source and destination format; none where they are equal. -/
def cvtFFInstr (src dst : Fmt) : Option Instr :=
  match src, dst with
  | .S, .D => some .fcvtDS
  | .S, .X => some .fcvtXS
  | .D, .X => some .fcvtXD
  | .D, .S => some .fcvtSD
  | .X, .S => some .fcvtSX
  | .X, .D => some .fcvtDX
  | .S, .S | .D, .D | .X, .X => none

/-- Group 3 (R49): source integer type and destination format. -/
def cvtIFInstr (src : IntTy) (dst : Fmt) : Instr :=
  match src with
  | .W => byFmt dst .fcvtSW .fcvtDW .fcvtXW
  | .L => byFmt dst .fcvtSL .fcvtDL .fcvtXL

/-- Group 4 (R50): truncating or not, source format and destination integer type. -/
def cvtFIInstr (fn : BitVec 4) (src : Fmt) (dst : IntTy) : Option Instr :=
  match fn.toNat, dst with
  | 0, .W => some (byFmt src .fcvtWS .fcvtWD .fcvtWX)
  | 0, .L => some (byFmt src .fcvtLS .fcvtLD .fcvtLX)
  | 1, .W => some (byFmt src .fcvttWS .fcvttWD .fcvttWX)
  | 1, .L => some (byFmt src .fcvttLS .fcvttLD .fcvttLX)
  | _, _ => none

/-- Group 5 (R51): function and format. -/
def codecInstr (fn : BitVec 4) (f : Fmt) : Option Instr :=
  match fn.toNat with
  | 0 => some (byFmt f .fclassS .fclassD .fclassX)
  | 1 => some (byFmt f .fsnanS .fsnanD .fsnanX)
  | _ => none

/-- An instruction, or the word is reserved for the named reason. -/
def orReserved (o : Option Instr) (r : Reserved) : Except Reserved Instr :=
  match o with
  | some i => .ok i
  | none => .error r

/-- `Decode` of 30_encoding.md R58: a pure function of the 16-bit word (R53), total on all 65536 words. The
fields are `GRP[15:12] FN[11:8] SRC[7:4] DST[3:0]` (R42). -/
def decode (P : Config.Params) (w : Word16) : Except Reserved Instr :=
  let g := w.extractLsb' 12 4
  let fn := w.extractLsb' 8 4
  let s := w.extractLsb' 4 4
  let d := w.extractLsb' 0 4
  match g.toNat with
  | 0 =>
    match fmtOfCode s with
    | none => .error .source
    | some f => if d = s then orReserved (arithInstr fn f) .function else .error .formatsDiffer
  | 1 =>
    if !P.hasCmp then .error .groupAbsent else
    match fmtOfCode s with
    | none => .error .source
    | some f => if d = 15#4 then orReserved (cmpInstr fn f) .function else .error .destination
  | 2 =>
    match fmtOfCode s, fmtOfCode d with
    | none, _ => .error .source
    | some _, none => .error .destination
    | some a, some b => if fn = 0#4 then orReserved (cvtFFInstr a b) .formatsEqual else .error .function
  | 3 =>
    match intOfCode s, fmtOfCode d with
    | none, _ => .error .source
    | some _, none => .error .destination
    | some a, some b => if fn = 0#4 then .ok (cvtIFInstr a b) else .error .function
  | 4 =>
    match fmtOfCode s, intOfCode d with
    | none, _ => .error .source
    | some _, none => .error .destination
    | some a, some b => orReserved (cvtFIInstr fn a b) .function
  | 5 =>
    match fmtOfCode s with
    | none => .error .source
    | some f => if d = 15#4 then orReserved (codecInstr fn f) .function else .error .destination
  | _ => .error .group

/-- The decoder's answer on a word given as a number: an instruction is one 16-bit word with no operand words,
written to CMD whole (30_encoding.md R42); a number that is no 16-bit word is no instruction. -/
def decodeTableWord (nbits w : Nat) : Option Instr :=
  if nbits ≤ 16 ∧ w < 2 ^ 16 then
    match decode Config.fpe1 (BitVec.ofNat 16 w) with
    | .ok i => some i
    | .error _ => none
  else none

/-- The command word of every command, from the table of 30_encoding.md R59. -/
def encode : Instr → Word16
  | .faddS => 0x0000#16
  | .faddD => 0x0011#16
  | .faddX => 0x0022#16
  | .fsubS => 0x0100#16
  | .fsubD => 0x0111#16
  | .fsubX => 0x0122#16
  | .fmulS => 0x0200#16
  | .fmulD => 0x0211#16
  | .fmulX => 0x0222#16
  | .fdivS => 0x0300#16
  | .fdivD => 0x0311#16
  | .fdivX => 0x0322#16
  | .fsqrtS => 0x0400#16
  | .fsqrtD => 0x0411#16
  | .fsqrtX => 0x0422#16
  | .frintS => 0x0500#16
  | .frintD => 0x0511#16
  | .frintX => 0x0522#16
  | .feqS => 0x100F#16
  | .feqD => 0x101F#16
  | .feqX => 0x102F#16
  | .fltS => 0x110F#16
  | .fltD => 0x111F#16
  | .fltX => 0x112F#16
  | .fleS => 0x120F#16
  | .fleD => 0x121F#16
  | .fleX => 0x122F#16
  | .funS => 0x130F#16
  | .funD => 0x131F#16
  | .funX => 0x132F#16
  | .feqsS => 0x140F#16
  | .feqsD => 0x141F#16
  | .feqsX => 0x142F#16
  | .fltsS => 0x150F#16
  | .fltsD => 0x151F#16
  | .fltsX => 0x152F#16
  | .flesS => 0x160F#16
  | .flesD => 0x161F#16
  | .flesX => 0x162F#16
  | .funsS => 0x170F#16
  | .funsD => 0x171F#16
  | .funsX => 0x172F#16
  | .fcmpS => 0x180F#16
  | .fcmpD => 0x181F#16
  | .fcmpX => 0x182F#16
  | .fcmpsS => 0x190F#16
  | .fcmpsD => 0x191F#16
  | .fcmpsX => 0x192F#16
  | .fcvtDS => 0x2001#16
  | .fcvtXS => 0x2002#16
  | .fcvtSD => 0x2010#16
  | .fcvtXD => 0x2012#16
  | .fcvtSX => 0x2020#16
  | .fcvtDX => 0x2021#16
  | .fcvtSW => 0x3080#16
  | .fcvtDW => 0x3081#16
  | .fcvtXW => 0x3082#16
  | .fcvtSL => 0x3090#16
  | .fcvtDL => 0x3091#16
  | .fcvtXL => 0x3092#16
  | .fcvtWS => 0x4008#16
  | .fcvtLS => 0x4009#16
  | .fcvtWD => 0x4018#16
  | .fcvtLD => 0x4019#16
  | .fcvtWX => 0x4028#16
  | .fcvtLX => 0x4029#16
  | .fcvttWS => 0x4108#16
  | .fcvttLS => 0x4109#16
  | .fcvttWD => 0x4118#16
  | .fcvttLD => 0x4119#16
  | .fcvttWX => 0x4128#16
  | .fcvttLX => 0x4129#16
  | .fclassS => 0x500F#16
  | .fclassD => 0x501F#16
  | .fclassX => 0x502F#16
  | .fsnanS => 0x510F#16
  | .fsnanD => 0x511F#16
  | .fsnanX => 0x512F#16

/-- The words of group ARITH, written out from the table of 30_encoding.md R59. -/
def arithWords : List (Word16 × Instr) := [
  (0x0000#16, .faddS), (0x0011#16, .faddD), (0x0022#16, .faddX),
  (0x0100#16, .fsubS), (0x0111#16, .fsubD), (0x0122#16, .fsubX),
  (0x0200#16, .fmulS), (0x0211#16, .fmulD), (0x0222#16, .fmulX),
  (0x0300#16, .fdivS), (0x0311#16, .fdivD), (0x0322#16, .fdivX),
  (0x0400#16, .fsqrtS), (0x0411#16, .fsqrtD), (0x0422#16, .fsqrtX),
  (0x0500#16, .frintS), (0x0511#16, .frintD), (0x0522#16, .frintX)]

/-- The words of group CMP, written out from the table of 30_encoding.md R59. -/
def cmpWords : List (Word16 × Instr) := [
  (0x100F#16, .feqS), (0x101F#16, .feqD), (0x102F#16, .feqX),
  (0x110F#16, .fltS), (0x111F#16, .fltD), (0x112F#16, .fltX),
  (0x120F#16, .fleS), (0x121F#16, .fleD), (0x122F#16, .fleX),
  (0x130F#16, .funS), (0x131F#16, .funD), (0x132F#16, .funX),
  (0x140F#16, .feqsS), (0x141F#16, .feqsD), (0x142F#16, .feqsX),
  (0x150F#16, .fltsS), (0x151F#16, .fltsD), (0x152F#16, .fltsX),
  (0x160F#16, .flesS), (0x161F#16, .flesD), (0x162F#16, .flesX),
  (0x170F#16, .funsS), (0x171F#16, .funsD), (0x172F#16, .funsX),
  (0x180F#16, .fcmpS), (0x181F#16, .fcmpD), (0x182F#16, .fcmpX),
  (0x190F#16, .fcmpsS), (0x191F#16, .fcmpsD), (0x192F#16, .fcmpsX)]

/-- The words of group CVT_FF, written out from the table of 30_encoding.md R59. -/
def cvtFFWords : List (Word16 × Instr) := [
  (0x2001#16, .fcvtDS), (0x2002#16, .fcvtXS), (0x2010#16, .fcvtSD),
  (0x2012#16, .fcvtXD), (0x2020#16, .fcvtSX), (0x2021#16, .fcvtDX)]

/-- The words of group CVT_IF, written out from the table of 30_encoding.md R59. -/
def cvtIFWords : List (Word16 × Instr) := [
  (0x3080#16, .fcvtSW), (0x3081#16, .fcvtDW), (0x3082#16, .fcvtXW),
  (0x3090#16, .fcvtSL), (0x3091#16, .fcvtDL), (0x3092#16, .fcvtXL)]

/-- The words of group CVT_FI, written out from the table of 30_encoding.md R59. -/
def cvtFIWords : List (Word16 × Instr) := [
  (0x4008#16, .fcvtWS), (0x4009#16, .fcvtLS), (0x4018#16, .fcvtWD),
  (0x4019#16, .fcvtLD), (0x4028#16, .fcvtWX), (0x4029#16, .fcvtLX),
  (0x4108#16, .fcvttWS), (0x4109#16, .fcvttLS), (0x4118#16, .fcvttWD),
  (0x4119#16, .fcvttLD), (0x4128#16, .fcvttWX), (0x4129#16, .fcvttLX)]

/-- The words of group CODEC, written out from the table of 30_encoding.md R59. -/
def codecWords : List (Word16 × Instr) := [
  (0x500F#16, .fclassS), (0x501F#16, .fclassD), (0x502F#16, .fclassX),
  (0x510F#16, .fsnanS), (0x511F#16, .fsnanD), (0x512F#16, .fsnanX)]

/-- Every word of arithWords decodes to the command R59 gives it. -/
theorem decode_arithWords : ∀ p ∈ arithWords, decode Config.fpe1 p.1 = .ok p.2 := by decide +kernel

/-- Every word of cmpWords decodes to the command R59 gives it. -/
theorem decode_cmpWords : ∀ p ∈ cmpWords, decode Config.fpe1 p.1 = .ok p.2 := by decide +kernel

/-- Every word of cvtFFWords decodes to the command R59 gives it. -/
theorem decode_cvtFFWords : ∀ p ∈ cvtFFWords, decode Config.fpe1 p.1 = .ok p.2 := by decide +kernel

/-- Every word of cvtIFWords decodes to the command R59 gives it. -/
theorem decode_cvtIFWords : ∀ p ∈ cvtIFWords, decode Config.fpe1 p.1 = .ok p.2 := by decide +kernel

/-- Every word of cvtFIWords decodes to the command R59 gives it. -/
theorem decode_cvtFIWords : ∀ p ∈ cvtFIWords, decode Config.fpe1 p.1 = .ok p.2 := by decide +kernel

/-- Every word of codecWords decodes to the command R59 gives it. -/
theorem decode_codecWords : ∀ p ∈ codecWords, decode Config.fpe1 p.1 = .ok p.2 := by decide +kernel

end Sys2Proof
end

