-- ==== Sys2Proof/Machine/State.lean ====
section
/-! DEFINITION. The state of one block instance and its host (10_state.md R10, R29), the reasons a step can stop,
and the state after reset (R26, R27; 70_reset_and_hazards.md R260). -/

namespace Sys2Proof.Machine

/-- A value a host read has returned: the register number read and its value (30_encoding.md R41). -/
structure Reading where
  reg : Nat
  value : Word80
  deriving DecidableEq, Repr

/-- The complete architectural state is five registers (10_state.md R10); the three `...Held` bits are the
'unwritten' markers the spec asks a model to keep (93_implementation_defined.md U3). `script` and `readings` are
the model's own: the host's side of the interface (log entries 1 and 2). -/
structure State where
  /-- `OPA`, register 0: the first operand (R13). -/
  opa : Word80
  /-- Has the host written OPA since reset (R27)? -/
  opaHeld : Bool
  /-- `OPB`, register 1: the second operand (R13). -/
  opb : Word80
  /-- Has the host written OPB since reset (R27)? -/
  opbHeld : Bool
  /-- `RES`, register 2: the result (R13). -/
  res : Word80
  /-- Has a command completed since reset, so that RES holds a value (R27)? -/
  resHeld : Bool
  /-- `CTRL`, register 3: rounding mode, precision, NaN mode, flush to zero (R16). -/
  ctrl : Word16
  /-- `FLAGS`, register 4: the sticky exception flags and precision_lost_upward (R19). -/
  flags : Word16
  /-- The host's transactions not yet performed, next first (R12, 30_encoding.md R56; log entry 1). -/
  script : List HostEvent
  /-- What the host's reads have returned, newest first (30_encoding.md R41, R57; log entry 2). -/
  readings : List Reading
  deriving DecidableEq, Repr

/-- The machine stops with a fault: never. 'The only outcomes of a step are "command completed" and `refuse`'
(60_exceptions.md R240, R251), so there is no constructor (log entry 17). Safe. -/
inductive Fault where
  deriving DecidableEq, Repr

/-- The spec's `refuse`: an input to which it gives no behaviour (60_exceptions.md R252,
93_implementation_defined.md Part 1). All are safe: the model stops where the spec says nothing can be proved. -/
inductive Refusal where
  /-- An instruction with no meaning in this model. No arm of exec raises it; safe. -/
  | notModelled (mnemonic : String)
  /-- A write of CMD with a reserved word (30_encoding.md R52, U1), raised by the command step; safe. -/
  | reservedWord (why : Reserved)
  /-- A command issued while CTRL.PC = 1 (10_state.md R17, U2), raised by every command; safe. -/
  | reservedPrecision
  /-- A command issued while OPA holds no value: the spec orders this stop (10_state.md R27, 30_encoding.md R44,
  60_exceptions.md R252, 70_reset_and_hazards.md R260, U3, 92_eei_decisions.md D33); raised by every command; safe. -/
  | opaUnwritten
  /-- A two-operand command issued while OPB holds no value: the spec orders this stop (R27, R44, R252, R260, U3, D33;
  95_test_vectors.md P6 (c)); raised by the two-operand commands; safe. -/
  | opbUnwritten
  /-- A host read of RES before the first completed command: the spec orders this stop (R27, R252, R260, U4, D33;
  95_test_vectors.md P6 (d)); raised by the read of register 2 alone; safe. -/
  | resUnwritten
  /-- A host write of RES (30_encoding.md R40, U5); safe. -/
  | resReadOnly
  /-- A host read of CMD (10_state.md R23, U6); safe. -/
  | cmdWriteOnly
  /-- An access to a register number above 5 (30_encoding.md R40, U7); safe. -/
  | noSuchRegister
  /-- A write of 'the value read' by a host that has read nothing: no transaction at all (30_encoding.md R57, log
  entry 7); safe. -/
  | nothingRead
  deriving DecidableEq, Repr

/-- The machine right after reset (10_state.md R26, R27; 70_reset_and_hazards.md R260): `CTRL = 0x000C`,
`FLAGS = 0x0000`, and `OPA`, `OPB`, `RES` hold no value. The zeros behind the unheld registers are placeholders
(DESIGN CHOICE, log entry 3). No host transaction is pending and none has been performed (log entries 1, 2). -/
def State.reset : State where
  opa := 0
  opaHeld := false
  opb := 0
  opbHeld := false
  res := 0
  resHeld := false
  ctrl := 0x000C#16
  flags := 0x0000#16
  script := []
  readings := []

end Sys2Proof.Machine
end

