-- ==== Sys2Proof/Machine/Flags.lean ====
section
/-! DEFINITION. The Status Context (10_state.md R15): the flags and their bits in FLAGS (R19), the fields of CTRL
(R16), and the writes of both registers (R16, R21). -/

namespace Sys2Proof.Machine

/-- The six exception flags and precision_lost_upward (10_state.md R15, R19; 60_exceptions.md R241). -/
inductive Flag where
  | invalid
  | denormal
  | divbyzero
  | overflow
  | underflow
  | inexact
  | plu
  deriving DecidableEq, Repr

/-- The bit of FLAGS that a flag sets (10_state.md R19). -/
def Flag.bit : Flag → Word16
  | .invalid => 0x0001#16
  | .denormal => 0x0002#16
  | .divbyzero => 0x0004#16
  | .overflow => 0x0008#16
  | .underflow => 0x0010#16
  | .inexact => 0x0020#16
  | .plu => 0x0200#16

/-- `flags_to_add` for a set of raised flags: the OR of their bits (00_scope.md R7, R8). -/
def raise (fs : List Flag) : Word16 := fs.foldr (fun f acc => f.bit ||| acc) 0#16

/-- `raise f` under a condition. -/
def raiseIf (c : Bool) (f : Flag) : Word16 := if c then f.bit else 0#16

/-- The bits of FLAGS that exist: 5:0 and 9 (10_state.md R19). -/
def flagsMask : Word16 := 0x023F#16

/-- The bits of CTRL that exist: 5:0 (10_state.md R16). -/
def ctrlMask : Word16 := 0x003F#16

/-- The four rounding modes (10_state.md R15, 41_rounder.md R94). -/
inductive Rounding where
  | nearestEven
  | towardNegative
  | towardPositive
  | towardZero
  deriving DecidableEq, Repr

/-- `CTRL.RM`, bits 1:0 (10_state.md R16): every code is valid (R17). -/
def roundingOf (ctrl : Word16) : Rounding :=
  match (ctrl.extractLsb' 0 2).toNat with
  | 0 => .nearestEven
  | 1 => .towardNegative
  | 2 => .towardPositive
  | _ => .towardZero

/-- The precisions of the extended80 arithmetic commands (10_state.md R16). -/
inductive Precision where
  | single
  | double
  | extended
  deriving DecidableEq, Repr

/-- Significand bits of a precision: 24, 53 or 64 (41_rounder.md R104). -/
def Precision.bits : Precision → Nat
  | .single => 24
  | .double => 53
  | .extended => 64

/-- `CTRL.PC`, bits 3:2 (10_state.md R16); code 1 is reserved (R17). -/
def precisionOf (ctrl : Word16) : Option Precision :=
  match (ctrl.extractLsb' 2 2).toNat with
  | 0 => some .single
  | 2 => some .double
  | 3 => some .extended
  | _ => none

/-- nan_handling_mode (10_state.md R15, 40_codec.md R78). -/
inductive NanMode where
  | largestSignificand
  | firstOperand
  deriving DecidableEq, Repr

/-- `CTRL.NANMODE`, bit 4 (10_state.md R16). -/
def nanModeOf (ctrl : Word16) : NanMode := if ctrl.getLsbD 4 then .firstOperand else .largestSignificand

/-- The four configuration fields of the Status Context that a command reads (10_state.md R15, R18). -/
structure Context where
  rm : Rounding
  prec : Precision
  nanMode : NanMode
  ftz : Bool
  deriving DecidableEq, Repr

/-- The Status Context in CTRL; none where it is misconfigured, that is `CTRL.PC = 1` (10_state.md R17). -/
def contextOf (ctrl : Word16) : Option Context :=
  match precisionOf ctrl with
  | none => none
  | some p => some { rm := roundingOf ctrl, prec := p, nanMode := nanModeOf ctrl, ftz := ctrl.getLsbD 5 }

/-- What a command computes: `Op(operands, CTRL) -> (result, flags_to_add)` (00_scope.md R8), the result already
zero-extended to 80 bits (10_state.md R14). -/
structure Result where
  value : Word80
  flags : Word16
  deriving DecidableEq, Repr

/-- A result with more flags raised beside its own. -/
def Result.also (r : Result) (add : Word16) : Result := { r with flags := add ||| r.flags }

end Sys2Proof.Machine
end

