-- ==== Sys2Proof/Machine/Operands.lean ====
section
/-! DEFINITION. Operand and result forms: which bits of an operand register a command reads, and how a result is
placed in RES (10_state.md R14; 30_encoding.md R43, R54). -/

namespace Sys2Proof.Machine

/-- Total bits `N` of a format (40_codec.md R60). -/
def fmtBits : Fmt → Nat
  | .S => 32
  | .D => 64
  | .X => 80

/-- Bits of an integer type (30_encoding.md R43, 48_converter.md R214). -/
def intBits : IntTy → Nat
  | .W => 32
  | .L => 64

/-- The type of an operand or a result (30_encoding.md R43): a float format, an integer type, or (result only)
a small code in bits 7:0. -/
inductive OpType where
  | flt (f : Fmt)
  | int (t : IntTy)
  | code
  deriving DecidableEq, Repr

/-- The bits of a register that a type uses (30_encoding.md R43). -/
def OpType.bits : OpType → Nat
  | .flt f => fmtBits f
  | .int t => intBits t
  | .code => 8

/-- The type of a command's operand or operands: column 'Operands' of 30_encoding.md R59. -/
def srcType : Instr → OpType
  | .faddS | .fsubS | .fmulS | .fdivS | .fsqrtS | .frintS | .fclassS | .fsnanS => .flt .S
  | .faddD | .fsubD | .fmulD | .fdivD | .fsqrtD | .frintD | .fclassD | .fsnanD => .flt .D
  | .faddX | .fsubX | .fmulX | .fdivX | .fsqrtX | .frintX | .fclassX | .fsnanX => .flt .X
  | .feqS | .fltS | .fleS | .funS | .feqsS | .fltsS | .flesS | .funsS | .fcmpS | .fcmpsS => .flt .S
  | .feqD | .fltD | .fleD | .funD | .feqsD | .fltsD | .flesD | .funsD | .fcmpD | .fcmpsD => .flt .D
  | .feqX | .fltX | .fleX | .funX | .feqsX | .fltsX | .flesX | .funsX | .fcmpX | .fcmpsX => .flt .X
  | .fcvtDS | .fcvtXS | .fcvtWS | .fcvtLS | .fcvttWS | .fcvttLS => .flt .S
  | .fcvtXD | .fcvtSD | .fcvtWD | .fcvtLD | .fcvttWD | .fcvttLD => .flt .D
  | .fcvtSX | .fcvtDX | .fcvtWX | .fcvtLX | .fcvttWX | .fcvttLX => .flt .X
  | .fcvtSW | .fcvtDW | .fcvtXW => .int .W
  | .fcvtSL | .fcvtDL | .fcvtXL => .int .L

/-- The type of a command's result: column 'Result' of 30_encoding.md R59. -/
def dstType : Instr → OpType
  | .faddS | .fsubS | .fmulS | .fdivS | .fsqrtS | .frintS => .flt .S
  | .faddD | .fsubD | .fmulD | .fdivD | .fsqrtD | .frintD => .flt .D
  | .faddX | .fsubX | .fmulX | .fdivX | .fsqrtX | .frintX => .flt .X
  | .feqS | .fltS | .fleS | .funS | .feqsS | .fltsS | .flesS | .funsS | .fcmpS | .fcmpsS => .code
  | .feqD | .fltD | .fleD | .funD | .feqsD | .fltsD | .flesD | .funsD | .fcmpD | .fcmpsD => .code
  | .feqX | .fltX | .fleX | .funX | .feqsX | .fltsX | .flesX | .funsX | .fcmpX | .fcmpsX => .code
  | .fclassS | .fclassD | .fclassX | .fsnanS | .fsnanD | .fsnanX => .code
  | .fcvtSD | .fcvtSX | .fcvtSW | .fcvtSL => .flt .S
  | .fcvtDS | .fcvtDX | .fcvtDW | .fcvtDL => .flt .D
  | .fcvtXS | .fcvtXD | .fcvtXW | .fcvtXL => .flt .X
  | .fcvtWS | .fcvttWS | .fcvtWD | .fcvttWD | .fcvtWX | .fcvttWX => .int .W
  | .fcvtLS | .fcvttLS | .fcvtLD | .fcvttLD | .fcvtLX | .fcvttLX => .int .L

/-- Does the command read OPB? FADD, FSUB, FMUL, FDIV and the comparisons do; every other command is a
one-operand command (30_encoding.md R44 to R46). -/
def readsOpb : Instr → Bool
  | .faddS | .faddD | .faddX | .fsubS | .fsubD | .fsubX => true
  | .fmulS | .fmulD | .fmulX | .fdivS | .fdivD | .fdivX => true
  | .feqS | .feqD | .feqX | .fltS | .fltD | .fltX | .fleS | .fleD | .fleX | .funS | .funD | .funX => true
  | .feqsS | .feqsD | .feqsX | .fltsS | .fltsD | .fltsX | .flesS | .flesD | .flesX => true
  | .funsS | .funsD | .funsX | .fcmpS | .fcmpD | .fcmpX | .fcmpsS | .fcmpsD | .fcmpsX => true
  | .fsqrtS | .fsqrtD | .fsqrtX | .frintS | .frintD | .frintX => false
  | .fcvtDS | .fcvtXS | .fcvtXD | .fcvtSD | .fcvtSX | .fcvtDX => false
  | .fcvtSW | .fcvtDW | .fcvtXW | .fcvtSL | .fcvtDL | .fcvtXL => false
  | .fcvtWS | .fcvtLS | .fcvtWD | .fcvtLD | .fcvtWX | .fcvtLX => false
  | .fcvttWS | .fcvttLS | .fcvttWD | .fcvttLD | .fcvttWX | .fcvttLX => false
  | .fclassS | .fclassD | .fclassX | .fsnanS | .fsnanD | .fsnanX => false

/-- A float operand: the low `N` bits of the register, held zero-extended in 80 bits; the bits above are ignored
(10_state.md R14; log entry 16). -/
def fltOperand (f : Fmt) (r : Word80) : Word80 := (r.setWidth (fmtBits f)).setWidth 80

/-- An integer operand: the low 32 or 64 bits as a signed two's-complement number (30_encoding.md R54). -/
def intOperand (t : IntTy) (r : Word80) : Int := (r.setWidth (intBits t)).toInt

/-- An integer result: `v mod 2^w` in two's complement, zero-extended into RES (49_float_to_int.md R222,
10_state.md R14). -/
def intResult (t : IntTy) (v : Int) : Word80 := (BitVec.ofInt (intBits t) v).setWidth 80

/-- A truth value as a result: 1 or 0 (30_encoding.md R46, R51). -/
def boolResult (b : Bool) : Word80 := if b then 1#80 else 0#80

/-- `INT_INDEFINITE(w)`, zero-extended (49_float_to_int.md R223). -/
def intIndefinite (P : Config.Params) : IntTy → Word80
  | .W => P.intIndefiniteW.setWidth 80
  | .L => P.intIndefiniteL.setWidth 80

/-- `DEFAULT_NAN(fmt)`, zero-extended (40_codec.md R71). -/
def defaultNaN (P : Config.Params) : Fmt → Word80
  | .S => P.defaultNaNS.setWidth 80
  | .D => P.defaultNaND.setWidth 80
  | .X => P.defaultNaNX

end Sys2Proof.Machine
end

