-- ==== Sys2Proof/Machine/Ops.lean ====
section
/-! DEFINITION. The named operations on the registers: the outer shape of a command (30_encoding.md R44), its
completion, which is all of 'taking an exception' (60_exceptions.md R240), and the host's register accesses (R40). -/

namespace Sys2Proof.Machine

/-- Complete a command: `RES <- zext_80(result); FLAGS <- FLAGS | add`, in one event (30_encoding.md R44). This is
the block's only exception mechanism too: a command that meets an exceptional condition adds its flags, writes the
default result and completes like any other (60_exceptions.md R240, R247). Nothing is saved, nothing is masked,
control goes nowhere, and there is no return (R250, R251). -/
def complete (s : State) (r : Result) : State :=
  { s with res := r.value, resHeld := true, flags := s.flags ||| r.flags }

/-- The command step of a one-operand command (30_encoding.md R44): refused while CTRL is misconfigured
(10_state.md R17) or the needed OPA holds no value (10_state.md R27, 60_exceptions.md R252, 70_reset_and_hazards.md
R260, 93_implementation_defined.md U3, 92_eei_decisions.md D33, which all say `refuse`). OPB is not needed. -/
def command1 (op : Context → Word80 → Result) (s : State) : Host.Outcome State Fault Refusal :=
  match contextOf s.ctrl with
  | none => .refused .reservedPrecision
  | some c =>
    if s.opaHeld then .next (complete s (op c s.opa)) else .refused .opaUnwritten

/-- The command step of a two-operand command (30_encoding.md R44): OPA and OPB must both hold a value, by the same
rules (95_test_vectors.md P6 (c) marks the line with OPB unwritten `refuse`). -/
def command2 (op : Context → Word80 → Word80 → Result) (s : State) : Host.Outcome State Fault Refusal :=
  match contextOf s.ctrl with
  | none => .refused .reservedPrecision
  | some c =>
    if s.opaHeld then
      if s.opbHeld then .next (complete s (op c s.opa s.opb)) else .refused .opbUnwritten
    else .refused .opaUnwritten

/-- `RD n` (30_encoding.md R40, R41): the register's value, or the spec's `refuse`. Reserved bits of CTRL and FLAGS
read as 0 (10_state.md R16, R19). A read of an operand register that holds no value gives a free value (log entry
4); a read of RES that holds none is refused (R27, R252, R260; 93_implementation_defined.md U4; 95_test_vectors.md P6
(d)). -/
def readRegister (n : Nat) (s : State) : Except Refusal Word80 :=
  match n with
  | 0 => .ok (if s.opaHeld then s.opa else Config.unwrittenOperand 0)
  | 1 => .ok (if s.opbHeld then s.opb else Config.unwrittenOperand 1)
  | 2 => if s.resHeld then .ok s.res else .error .resUnwritten
  | 3 => .ok ((s.ctrl &&& ctrlMask).setWidth 80)
  | 4 => .ok ((s.flags &&& flagsMask).setWidth 80)
  | 5 => .error .cmdWriteOnly
  | _ => .error .noSuchRegister

/-- `WR 0, v`: all 80 bits of OPA (10_state.md R28). -/
def writeOpa (v : Word80) (s : State) : State := { s with opa := v, opaHeld := true }

/-- `WR 1, v`: all 80 bits of OPB (10_state.md R28). -/
def writeOpb (v : Word80) (s : State) : State := { s with opb := v, opbHeld := true }

/-- `WR 3, v`: CTRL; bits 15:6 do not store (10_state.md R16). PC = 1 is stored like any other value (R17, U2). -/
def writeCtrl (v : Word80) (s : State) : State := { s with ctrl := v.setWidth 16 &&& ctrlMask }

/-- `WR 4, v`: replace FLAGS, reserved bits forced to 0 (10_state.md R21). -/
def writeFlags (v : Word80) (s : State) : State := { s with flags := v.setWidth 16 &&& flagsMask }

/-- Record what a host read returned (30_encoding.md R41; log entry 2). -/
def record (n : Nat) (v : Word80) (s : State) : State := { s with readings := { reg := n, value := v } :: s.readings }

/-- Reset (70_reset_and_hazards.md R260): every register as after reset; the host's own script and readings are not
the block's and stay (log entry 11). -/
def resetBlock (s : State) : State := { State.reset with script := s.script, readings := s.readings }

end Sys2Proof.Machine
end

