-- ==== Sys2Proof/Machine/Arith.lean ====
section
/-! DEFINITION. The integer functions of 00_scope.md R6: bit length and integer square root. -/

namespace Sys2Proof.Machine

/-- `bitlen(n)`: the number of bits of a natural number; 0 for 0 (00_scope.md R6). -/
def bitlen (n : Nat) : Nat := if n = 0 then 0 else Nat.log2 n + 1

/-- The root of `n`, two bits of `n` a round, for `n < 4 ^ rounds`. -/
def isqrtRounds : Nat → Nat → Nat
  | 0, _ => 0
  | rounds + 1, n =>
    let r := 2 * isqrtRounds rounds (n / 4)
    if (r + 1) * (r + 1) ≤ n then r + 1 else r

/-- `isqrt(n)`: the largest natural `r` with `r * r <= n` (00_scope.md R6). -/
def isqrt (n : Nat) : Nat := isqrtRounds (bitlen n) n

/-- `m * 2^k` for an integer `k`; where `k < 0` the callers' preconditions make the division exact
(40_codec.md R74). -/
def scaleNat (m : Nat) (k : Int) : Nat :=
  if 0 ≤ k then m * 2 ^ k.toNat else m / 2 ^ (-k).toNat

/-- `(-1)^s * m`: a signed magnitude as an integer. -/
def signedInt (s : Bool) (m : Nat) : Int := if s then -(m : Int) else (m : Int)

end Sys2Proof.Machine
end

