-- ==== Sys2Proof/Machine/Codec.lean ====
section
/-! DEFINITION. fpu_format_codec (40_codec.md): fields, classes, unpack, pack, NaN handling. A packed value of a
format stands in the low `N` bits of an 80-bit word, zero-extended. -/

namespace Sys2Proof.Machine

/-- Exponent field width `w` (40_codec.md R60). -/
def expBits : Fmt → Nat
  | .S => 8
  | .D => 11
  | .X => 15

/-- Precision `P`: significand bits with the leading bit (R60). -/
def precBits : Fmt → Nat
  | .S => 24
  | .D => 53
  | .X => 64

/-- Fraction bits `t = P - 1` (R60). -/
def fracBits (f : Fmt) : Nat := precBits f - 1

/-- Width of the raw significand field: 23, 52, and 64 for extended80, whose leading bit is explicit (R61 to R63). -/
def sigBits : Fmt → Nat
  | .S => 23
  | .D => 52
  | .X => 64

/-- The all-ones exponent `EMAXF` (R60). -/
def expMax (f : Fmt) : Nat := 2 ^ expBits f - 1

/-- The exponent bias (R60). -/
def bias : Fmt → Int
  | .S => 127
  | .D => 1023
  | .X => 16383

/-- The smallest normal exponent, `1 - bias` (R60). -/
def emin (f : Fmt) : Int := 1 - bias f

/-- The largest exponent, `bias` (R60). -/
def emax (f : Fmt) : Int := bias f

/-- `Sign(fmt,a)` (R64); true is sign 1. -/
def signOf (f : Fmt) (a : Word80) : Bool := a.getLsbD (fmtBits f - 1)

/-- `Exp(fmt,a)`: the biased exponent field (R64). -/
def expOf (f : Fmt) (a : Word80) : Nat := (a.extractLsb' (sigBits f) (expBits f)).toNat

/-- `Frac(fmt,a)`: the fraction, the stored bits below the leading bit (R64). -/
def fracOf (f : Fmt) (a : Word80) : Nat := (a.extractLsb' 0 (fracBits f)).toNat

/-- `Sig(fmt,a)`: the raw significand field, the J bit included for extended80 (R64). -/
def sigOf (f : Fmt) (a : Word80) : Nat := (a.extractLsb' 0 (sigBits f)).toNat

/-- `J(a)`: the explicit integer bit of an extended80 value (R63, R64). -/
def jBit (a : Word80) : Bool := a.getLsbD 63

/-- `Mk(fmt,s,E,M)`: assemble a packed value from its fields (R64). -/
def mkPacked (f : Fmt) (s : Bool) (e m : Nat) : Word80 :=
  BitVec.ofNat 80 (s.toNat * 2 ^ (fmtBits f - 1) + (e % 2 ^ expBits f) * 2 ^ sigBits f + m % 2 ^ sigBits f)

/-- The closed class variant (R65). -/
inductive FloatClass where
  | zero
  | nan
  | negInfinity
  | posInfinity
  | denormal
  | normalized
  deriving DecidableEq, Repr

/-- `Classify(fmt,a)` (R65 for binary32 and binary64, R66 for extended80). -/
def classify (f : Fmt) (a : Word80) : FloatClass :=
  match f with
  | .X =>
    if expOf .X a = 0 then
      if sigOf .X a = 0 then .zero else .denormal
    else if jBit a = false then .nan
    else if expOf .X a = expMax .X then
      if fracOf .X a = 0 then (if signOf .X a then .negInfinity else .posInfinity) else .nan
    else .normalized
  | f =>
    if expOf f a = 0 then
      if fracOf f a = 0 then .zero else .denormal
    else if expOf f a = expMax f then
      if fracOf f a = 0 then (if signOf f a then .negInfinity else .posInfinity) else .nan
    else .normalized

/-- `Unsupported(fmt,a)`: an extended80 value with a nonzero exponent and `J = 0` (R67). -/
def unsupported (f : Fmt) (a : Word80) : Bool :=
  match f with
  | .X => expOf .X a != 0 && !jBit a
  | _ => false

/-- `IsNaN`, unsupported values included (R68). -/
def isNaN (f : Fmt) (a : Word80) : Bool := classify f a == .nan

/-- `IsInf` (R68). -/
def isInf (f : Fmt) (a : Word80) : Bool := classify f a == .negInfinity || classify f a == .posInfinity

/-- `IsZero` (R68). -/
def isZero (f : Fmt) (a : Word80) : Bool := classify f a == .zero

/-- `IsDenorm`, pseudo-denormals included (R68). -/
def isDenorm (f : Fmt) (a : Word80) : Bool := classify f a == .denormal

/-- `IsFinite` (R68). -/
def isFinite (f : Fmt) (a : Word80) : Bool :=
  classify f a == .zero || classify f a == .denormal || classify f a == .normalized

/-- `QBIT(fmt) = 2^(t-1)`: the most significant fraction bit (R69). -/
def quietBit (f : Fmt) : Word80 := BitVec.ofNat 80 (2 ^ (fracBits f - 1))

/-- `IsSNaN`: unsupported, or a NaN whose quiet bit is clear (R69). -/
def isSNaN (f : Fmt) (a : Word80) : Bool := unsupported f a || (isNaN f a && a &&& quietBit f == 0#80)

/-- `IsQNaN` (R69). -/
def isQNaN (f : Fmt) (a : Word80) : Bool := isNaN f a && !isSNaN f a

/-- `Quiet(fmt,a)`: set the quiet bit and keep everything else (R70). -/
def quiet (f : Fmt) (a : Word80) : Word80 := a ||| quietBit f

/-- The canonical triple `(s, m, q)` of value `(-1)^s * m * 2^q` (R72). -/
structure Unpacked where
  sign : Bool
  m : Nat
  q : Int
  deriving DecidableEq, Repr

/-- `Unpack(fmt,a)` of a finite value (R72). DESIGN CHOICE: the spec does not define it for infinities and NaNs; here it
reads their fields like a finite value's, and no command unpacks one (log entry 18). -/
def unpack (f : Fmt) (a : Word80) : Unpacked :=
  match f with
  | .X =>
    { sign := signOf .X a, m := sigOf .X a,
      q := (if expOf .X a = 0 then 1 else (expOf .X a : Int)) - 16383 - 63 }
  | f =>
    if expOf f a = 0 then { sign := signOf f a, m := fracOf f a, q := emin f - fracBits f }
    else { sign := signOf f a, m := 2 ^ fracBits f + fracOf f a, q := expOf f a - bias f - fracBits f }

/-- `PackFinite(fmt,s,m,q)` of an exactly representable `m * 2^q`, `m >= 1` (R74). -/
def packFinite (f : Fmt) (s : Bool) (m : Nat) (q : Int) : Word80 :=
  let e := q + bitlen m - 1
  let qP := max e (emin f) - (precBits f - 1)
  let M := scaleNat m (q - qP)
  if 2 ^ (precBits f - 1) ≤ M then
    mkPacked f s (e + bias f).toNat (match f with | .X => M | f => M - 2 ^ fracBits f)
  else mkPacked f s 0 M

/-- `Zero(fmt,s)` (R75). -/
def packZero (f : Fmt) (s : Bool) : Word80 := mkPacked f s 0 0

/-- `Inf(fmt,s)` (R75). -/
def packInf (f : Fmt) (s : Bool) : Word80 :=
  mkPacked f s (expMax f) (match f with | .X => 2 ^ 63 | _ => 0)

/-- The result of an invalid operation with a float result: `raise invalid`, DEFAULT_NAN (R71). -/
def invalidResult (P : Config.Params) (f : Fmt) : Result :=
  { value := defaultNaN P f, flags := raise [.invalid] }

/-- The one-operand NaN rule of FSQRT and FRINT (R77). -/
def quietNaNResult (f : Fmt) (a : Word80) : Result :=
  { value := quiet f a, flags := raiseIf (isSNaN f a) .invalid }

/-- Which operand `PropagateNaN` picks (R78): the first operand on a tie. -/
def pickNaN (c : Context) (f : Fmt) (a b : Word80) : Word80 :=
  match c.nanMode with
  | .largestSignificand =>
    if isNaN f a && isNaN f b then
      if sigOf f a < sigOf f b then b else a
    else if isNaN f a then a else b
  | .firstOperand => if isNaN f a then a else b

/-- `PropagateNaN(fmt,a,b)`, the two-operand NaN rule of FADD, FSUB, FMUL, FDIV (R78). -/
def propagateNaN (c : Context) (f : Fmt) (a b : Word80) : Result :=
  { value := quiet f (pickNaN c f a b), flags := raiseIf (isSNaN f a || isSNaN f b) .invalid }

/-- `raise denormal` if an operand is of class denormal: check (4) of R79 for one operand. -/
def denormal1 (f : Fmt) (a : Word80) : Word16 := raiseIf (isDenorm f a) .denormal

/-- `raise denormal` if an operand is of class denormal: check (4) of R79 for two operands. -/
def denormal2 (f : Fmt) (a b : Word80) : Word16 := raiseIf (isDenorm f a || isDenorm f b) .denormal

/-- The class codes FCLASS writes (R80). -/
def FloatClass.code : FloatClass → Word80
  | .zero => 0#80
  | .nan => 1#80
  | .negInfinity => 2#80
  | .posInfinity => 3#80
  | .denormal => 4#80
  | .normalized => 5#80

/-- FCLASS: the class code, no flags (R80 to R83). -/
def classResult (f : Fmt) (a : Word80) : Result := { value := (classify f a).code, flags := 0#16 }

/-- FSNAN: is the operand a signaling NaN, no flags (R84 to R86). -/
def snanResult (f : Fmt) (a : Word80) : Result := { value := boolResult (isSNaN f a), flags := 0#16 }

end Sys2Proof.Machine
end

