-- ==== Sys2Proof/Machine/Rounder.lean ====
section
/-! DEFINITION. normalization_rounder (41_rounder.md): RoundAt and RoundPack. -/

namespace Sys2Proof.Machine

/-- The effective precision `p` of the five arithmetic commands of a format: from CTRL.PC for extended80, the
format's own otherwise (41_rounder.md R104). -/
def arithPrec (c : Context) (f : Fmt) : Nat :=
  match f with
  | .X => c.prec.bits
  | f => precBits f

/-- `Increment`: is the kept magnitude increased by one (R94)? -/
def increment (rm : Rounding) (s : Bool) (fl rem half : Nat) (sticky inexact : Bool) : Bool :=
  match rm with
  | .nearestEven =>
    decide (half < rem) || (rem == half && sticky) || (rem == half && !sticky && fl % 2 == 1)
  | .towardNegative => inexact && s
  | .towardPositive => inexact && !s
  | .towardZero => false

/-- What RoundAt returns: the rounded magnitude is `m * 2^q` (R93). -/
structure Rounded where
  m : Nat
  inexact : Bool
  up : Bool
  deriving DecidableEq, Repr

/-- `RoundAt(rm, s, sig, exp, sticky, q)`: round to an integer multiple of `2^q` (R93). -/
def roundAt (rm : Rounding) (s : Bool) (sig : Nat) (exp : Int) (sticky : Bool) (q : Int) : Rounded :=
  let sh := q - exp
  if sh ≤ 0 then { m := sig * 2 ^ (-sh).toNat, inexact := false, up := false }
  else
    let k := sh.toNat
    let fl := sig / 2 ^ k
    let rem := sig % 2 ^ k
    let inexact := rem != 0 || sticky
    let inc := increment rm s fl rem (2 ^ (k - 1)) sticky inexact
    { m := fl + inc.toNat, inexact := inexact, up := inc }

/-- `toInf(rm, s)`: does an overflow deliver the infinity (R96, R106)? -/
def overflowToInf (rm : Rounding) (s : Bool) : Bool :=
  match rm with
  | .nearestEven => true
  | .towardNegative => s
  | .towardPositive => !s
  | .towardZero => false

/-- The result of an overflow (R96): infinity, with `plu` for extended80, or the largest finite number of the
effective precision. -/
def overflowResult (c : Context) (f : Fmt) (p : Nat) (s : Bool) : Result :=
  if overflowToInf c.rm s then
    { value := packInf f s, flags := raise [.overflow, .inexact] ||| raiseIf (f == .X) .plu }
  else
    { value := packFinite f s (2 ^ p - 1) (emax f - (p - 1)), flags := raise [.overflow, .inexact] }

/-- The delivered value of step 2 (R98, R100 to R103): `m * 2^q`, a signed zero where `m = 0`. -/
def deliver (P : Config.Params) (f : Fmt) (s tiny : Bool) (q : Int) (r : Rounded) : Result :=
  { value := if r.m = 0 then packZero f s else packFinite f s r.m q,
    flags := raiseIf (tiny && (r.inexact || !P.underflowNeedsInexact)) .underflow
      ||| raiseIf r.inexact .inexact ||| raiseIf (r.inexact && r.up && f == .X) .plu }

/-- The exponent of the value rounded with unbounded exponent range, `e1` of step 1 (R95). -/
def roundedExp (c : Context) (p : Nat) (s : Bool) (sig : Nat) (exp : Int) (sticky : Bool) : Int :=
  let e := exp + bitlen sig - 1
  if (roundAt c.rm s sig exp sticky (e - (p - 1))).m = 2 ^ p then e + 1 else e

/-- `RoundPack(fmt, p, s, sig, exp, sticky)` (R106): round once, check the range, flush, pack. With
UNDERFLOW_NEEDS_INEXACT false every tiny result raises `underflow` (00_scope.md R5, log entry 9). -/
def roundPack (P : Config.Params) (c : Context) (f : Fmt) (p : Nat) (s : Bool) (sig : Nat) (exp : Int)
    (sticky : Bool) : Result :=
  let e1 := roundedExp c p s sig exp sticky
  if emax f < e1 then overflowResult c f p s
  else
    let tiny := decide (e1 < emin f)
    if tiny && c.ftz then { value := packZero f s, flags := raise [.underflow, .inexact] }
    else
      let q := max (exp + bitlen sig - 1) (emin f) - (p - 1)
      deliver P f s tiny q (roundAt c.rm s sig exp sticky q)

end Sys2Proof.Machine
end

