-- ==== Sys2Proof/Machine/Adder.lean ====
section
/-! DEFINITION. ieee754_adder (42_adder.md): FADD and FSUB. -/

namespace Sys2Proof.Machine

/-- The numerator of the exact sum `T * 2^q`, `q = min qa qb` (42_adder.md R112, R114). -/
def exactSum (sa sb : Bool) (ua ub : Unpacked) : Int :=
  signedInt sa (ua.m * 2 ^ (ua.q - min ua.q ub.q).toNat) + signedInt sb (ub.m * 2 ^ (ub.q - min ua.q ub.q).toNat)

/-- The sign of an exact zero sum (42_adder.md R113): the common sign of two zeros of one effective sign, otherwise
minus only under toward −∞. -/
def zeroSumSign (rm : Rounding) (ma mb : Nat) (sa sb : Bool) : Bool :=
  if ma = 0 ∧ mb = 0 ∧ sa = sb then sa else rm == .towardNegative

/-- The sum of two finite values with effective signs `sa` and `sb` (the last lines of R112). -/
def addFinite (P : Config.Params) (c : Context) (f : Fmt) (sa sb : Bool) (ua ub : Unpacked) : Result :=
  let T := exactSum sa sb ua ub
  if T = 0 then { value := packZero f (zeroSumSign c.rm ua.m ub.m sa sb), flags := 0#16 }
  else roundPack P c f (arithPrec c f) (decide (T < 0)) T.natAbs (min ua.q ub.q) false

/-- `AddCore(fmt, a, b, neg)` (42_adder.md R112). The NaN that is propagated keeps its own sign under FSUB. -/
def addCore (P : Config.Params) (c : Context) (f : Fmt) (a b : Word80) (neg : Bool) : Result :=
  let sa := signOf f a
  let sb := signOf f b ^^ neg
  if unsupported f a || unsupported f b then invalidResult P f
  else if isNaN f a || isNaN f b then propagateNaN c f a b
  else if isInf f a && isInf f b && sa != sb then invalidResult P f
  else if isInf f a then { value := a, flags := denormal2 f a b }
  else if isInf f b then { value := packInf f sb, flags := denormal2 f a b }
  else (addFinite P c f sa sb (unpack f a) (unpack f b)).also (denormal2 f a b)

/-- FADD of a format (R110). -/
def faddOp (f : Fmt) (c : Context) (a b : Word80) : Result :=
  addCore Config.fpe1 c f (fltOperand f a) (fltOperand f b) false

/-- FSUB of a format (R110). -/
def fsubOp (f : Fmt) (c : Context) (a b : Word80) : Result :=
  addCore Config.fpe1 c f (fltOperand f a) (fltOperand f b) true

/-- FADD.S (42_adder.md R116). -/
def execFaddS (s : State) : Host.Outcome State Fault Refusal := command2 (faddOp .S) s
/-- FADD.D (R117). -/
def execFaddD (s : State) : Host.Outcome State Fault Refusal := command2 (faddOp .D) s
/-- FADD.X (R118). -/
def execFaddX (s : State) : Host.Outcome State Fault Refusal := command2 (faddOp .X) s
/-- FSUB.S (R119). -/
def execFsubS (s : State) : Host.Outcome State Fault Refusal := command2 (fsubOp .S) s
/-- FSUB.D (R120). -/
def execFsubD (s : State) : Host.Outcome State Fault Refusal := command2 (fsubOp .D) s
/-- FSUB.X (R121). -/
def execFsubX (s : State) : Host.Outcome State Fault Refusal := command2 (fsubOp .X) s

end Sys2Proof.Machine
end

