-- ==== Sys2Proof/Machine/CodecCommands.lean ====
section
/-! DEFINITION. The codec commands (40_codec.md R80 to R86): FCLASS and FSNAN. They read no field of CTRL. -/

namespace Sys2Proof.Machine

/-- FCLASS.S (40_codec.md R81). -/
def execFclassS (s : State) : Host.Outcome State Fault Refusal :=
  command1 (fun _ a => classResult .S (fltOperand .S a)) s
/-- FCLASS.D (40_codec.md R82). -/
def execFclassD (s : State) : Host.Outcome State Fault Refusal :=
  command1 (fun _ a => classResult .D (fltOperand .D a)) s
/-- FCLASS.X (40_codec.md R83). -/
def execFclassX (s : State) : Host.Outcome State Fault Refusal :=
  command1 (fun _ a => classResult .X (fltOperand .X a)) s
/-- FSNAN.S (40_codec.md R84). -/
def execFsnanS (s : State) : Host.Outcome State Fault Refusal :=
  command1 (fun _ a => snanResult .S (fltOperand .S a)) s
/-- FSNAN.D (40_codec.md R85). -/
def execFsnanD (s : State) : Host.Outcome State Fault Refusal :=
  command1 (fun _ a => snanResult .D (fltOperand .D a)) s
/-- FSNAN.X (40_codec.md R86). -/
def execFsnanX (s : State) : Host.Outcome State Fault Refusal :=
  command1 (fun _ a => snanResult .X (fltOperand .X a)) s

end Sys2Proof.Machine
end

