-- ==== Sys2Proof/Machine/Compare.lean ====
section
/-! DEFINITION. The comparison unit (47_compare.md): the eight predicates and the two orderings. -/

namespace Sys2Proof.Machine

/-- The four relations (47_compare.md R165): `less` means `a < b` with `a = OPA`, `b = OPB`. -/
inductive Relation where
  | less
  | equal
  | greater
  | unordered
  deriving DecidableEq, Repr

/-- The relation codes FCMP and FCMPS write (R165). -/
def Relation.code : Relation → Word80
  | .less => 0#80
  | .equal => 1#80
  | .greater => 2#80
  | .unordered => 3#80

/-- -1, 0, 1 for −∞, a finite value, +∞ (R167). -/
def infRank (f : Fmt) (a : Word80) : Int :=
  match classify f a with
  | .negInfinity => -1
  | .posInfinity => 1
  | _ => 0

/-- The value of a finite `u`, as an integer multiple of `2^q`, `q <= u.q`. -/
def scaledValue (u : Unpacked) (q : Int) : Int := signedInt u.sign (u.m * 2 ^ (u.q - q).toNat)

/-- Compare two integers. -/
def orderInt (x y : Int) : Relation := if x < y then .less else if x = y then .equal else .greater

/-- `Order(fmt, a, b)` of two non-NaN operands (R167): −∞ below, +∞ above every finite value, finite values by
their exact value, both zeros being 0. Values are compared after scaling both to the smaller quantum. -/
def order (f : Fmt) (a b : Word80) : Relation :=
  if infRank f a = 0 ∧ infRank f b = 0 then
    let ua := unpack f a
    let ub := unpack f b
    orderInt (scaledValue ua (min ua.q ub.q)) (scaledValue ub (min ua.q ub.q))
  else orderInt (infRank f a) (infRank f b)

/-- What the comparison core returns: the relation and the flags it raised (R166). -/
structure Compared where
  rel : Relation
  flags : Word16
  deriving DecidableEq, Repr

/-- `CmpCore(fmt, a, b, signaling)` (47_compare.md R166). No field of CTRL is read. -/
def cmpCore (f : Fmt) (a b : Word80) (signaling : Bool) : Compared :=
  if unsupported f a || unsupported f b then { rel := .unordered, flags := raise [.invalid] }
  else if isNaN f a || isNaN f b then
    { rel := .unordered, flags := raiseIf (signaling || isSNaN f a || isSNaN f b) .invalid }
  else { rel := order f a b, flags := denormal2 f a b }

/-- A predicate command: RES is 1 iff the predicate holds of the relation (R168). -/
def predicateOp (holds : Relation → Bool) (signaling : Bool) (f : Fmt) (a b : Word80) : Result :=
  let r := cmpCore f (fltOperand f a) (fltOperand f b) signaling
  { value := boolResult (holds r.rel), flags := r.flags }

/-- An ordering command: RES is the relation code (R165). -/
def orderingOp (signaling : Bool) (f : Fmt) (a b : Word80) : Result :=
  let r := cmpCore f (fltOperand f a) (fltOperand f b) signaling
  { value := r.rel.code, flags := r.flags }

/-- FEQ, FEQS: `rel == EQUAL` (R168). -/
def Relation.isEq : Relation → Bool
  | .equal => true
  | .less | .greater | .unordered => false

/-- FLT, FLTS: `rel == LESS` (R168). -/
def Relation.isLt : Relation → Bool
  | .less => true
  | .equal | .greater | .unordered => false

/-- FLE, FLES: `rel == LESS or rel == EQUAL` (R168). -/
def Relation.isLe : Relation → Bool
  | .less | .equal => true
  | .greater | .unordered => false

/-- FUN, FUNS: `rel == UNORDERED` (R168). -/
def Relation.isUn : Relation → Bool
  | .unordered => true
  | .less | .equal | .greater => false

/-- FEQ.S (47_compare.md R170). -/
def execFeqS (s : State) : Host.Outcome State Fault Refusal :=
  command2 (fun _ => predicateOp Relation.isEq false .S) s
/-- FEQ.D (R171). -/
def execFeqD (s : State) : Host.Outcome State Fault Refusal :=
  command2 (fun _ => predicateOp Relation.isEq false .D) s
/-- FEQ.X (R172). -/
def execFeqX (s : State) : Host.Outcome State Fault Refusal :=
  command2 (fun _ => predicateOp Relation.isEq false .X) s
/-- FLT.S (R173). -/
def execFltS (s : State) : Host.Outcome State Fault Refusal :=
  command2 (fun _ => predicateOp Relation.isLt false .S) s
/-- FLT.D (R174). -/
def execFltD (s : State) : Host.Outcome State Fault Refusal :=
  command2 (fun _ => predicateOp Relation.isLt false .D) s
/-- FLT.X (R175). -/
def execFltX (s : State) : Host.Outcome State Fault Refusal :=
  command2 (fun _ => predicateOp Relation.isLt false .X) s
/-- FLE.S (R176). -/
def execFleS (s : State) : Host.Outcome State Fault Refusal :=
  command2 (fun _ => predicateOp Relation.isLe false .S) s
/-- FLE.D (R177). -/
def execFleD (s : State) : Host.Outcome State Fault Refusal :=
  command2 (fun _ => predicateOp Relation.isLe false .D) s
/-- FLE.X (R178). -/
def execFleX (s : State) : Host.Outcome State Fault Refusal :=
  command2 (fun _ => predicateOp Relation.isLe false .X) s
/-- FUN.S (R179). -/
def execFunS (s : State) : Host.Outcome State Fault Refusal :=
  command2 (fun _ => predicateOp Relation.isUn false .S) s
/-- FUN.D (R180). -/
def execFunD (s : State) : Host.Outcome State Fault Refusal :=
  command2 (fun _ => predicateOp Relation.isUn false .D) s
/-- FUN.X (R181). -/
def execFunX (s : State) : Host.Outcome State Fault Refusal :=
  command2 (fun _ => predicateOp Relation.isUn false .X) s
/-- FEQS.S (R182). -/
def execFeqsS (s : State) : Host.Outcome State Fault Refusal :=
  command2 (fun _ => predicateOp Relation.isEq true .S) s
/-- FEQS.D (R183). -/
def execFeqsD (s : State) : Host.Outcome State Fault Refusal :=
  command2 (fun _ => predicateOp Relation.isEq true .D) s
/-- FEQS.X (R184). -/
def execFeqsX (s : State) : Host.Outcome State Fault Refusal :=
  command2 (fun _ => predicateOp Relation.isEq true .X) s
/-- FLTS.S (R185). -/
def execFltsS (s : State) : Host.Outcome State Fault Refusal :=
  command2 (fun _ => predicateOp Relation.isLt true .S) s
/-- FLTS.D (R186). -/
def execFltsD (s : State) : Host.Outcome State Fault Refusal :=
  command2 (fun _ => predicateOp Relation.isLt true .D) s
/-- FLTS.X (R187). -/
def execFltsX (s : State) : Host.Outcome State Fault Refusal :=
  command2 (fun _ => predicateOp Relation.isLt true .X) s
/-- FLES.S (R188). -/
def execFlesS (s : State) : Host.Outcome State Fault Refusal :=
  command2 (fun _ => predicateOp Relation.isLe true .S) s
/-- FLES.D (R189). -/
def execFlesD (s : State) : Host.Outcome State Fault Refusal :=
  command2 (fun _ => predicateOp Relation.isLe true .D) s
/-- FLES.X (R190). -/
def execFlesX (s : State) : Host.Outcome State Fault Refusal :=
  command2 (fun _ => predicateOp Relation.isLe true .X) s
/-- FUNS.S (R191). -/
def execFunsS (s : State) : Host.Outcome State Fault Refusal :=
  command2 (fun _ => predicateOp Relation.isUn true .S) s
/-- FUNS.D (R192). -/
def execFunsD (s : State) : Host.Outcome State Fault Refusal :=
  command2 (fun _ => predicateOp Relation.isUn true .D) s
/-- FUNS.X (R193). -/
def execFunsX (s : State) : Host.Outcome State Fault Refusal :=
  command2 (fun _ => predicateOp Relation.isUn true .X) s
/-- FCMP.S (R194). -/
def execFcmpS (s : State) : Host.Outcome State Fault Refusal :=
  command2 (fun _ => orderingOp false .S) s
/-- FCMP.D (R195). -/
def execFcmpD (s : State) : Host.Outcome State Fault Refusal :=
  command2 (fun _ => orderingOp false .D) s
/-- FCMP.X (R196). -/
def execFcmpX (s : State) : Host.Outcome State Fault Refusal :=
  command2 (fun _ => orderingOp false .X) s
/-- FCMPS.S (R197). -/
def execFcmpsS (s : State) : Host.Outcome State Fault Refusal :=
  command2 (fun _ => orderingOp true .S) s
/-- FCMPS.D (R198). -/
def execFcmpsD (s : State) : Host.Outcome State Fault Refusal :=
  command2 (fun _ => orderingOp true .D) s
/-- FCMPS.X (R199). -/
def execFcmpsX (s : State) : Host.Outcome State Fault Refusal :=
  command2 (fun _ => orderingOp true .X) s

end Sys2Proof.Machine
end

