-- ==== Sys2Proof/Machine/Converter.lean ====
section
/-! DEFINITION. ieee754_converter part 1 (48_converter.md): float to float, integer to float. -/

namespace Sys2Proof.Machine

/-- The payload of a NaN carried from `src` to `dst`, top-aligned, with the quiet bit of the destination set
(48_converter.md R206). -/
def nanPayload (src dst : Fmt) (fr : Nat) : Nat :=
  (if fracBits src ≤ fracBits dst then fr * 2 ^ (fracBits dst - fracBits src)
    else fr / 2 ^ (fracBits src - fracBits dst)) ||| 2 ^ (fracBits dst - 1)

/-- `CvtNaN(src, dst, a)` (48_converter.md R206): sign kept, exponent all ones, J = 1 for extended80. -/
def cvtNaN (src dst : Fmt) (a : Word80) : Result :=
  { value := mkPacked dst (signOf src a) (expMax dst)
      ((match dst with | .X => 2 ^ 63 | _ => 0) + nanPayload src dst (fracOf src a)),
    flags := raiseIf (isSNaN src a) .invalid }

/-- The `denormal` flag of a float to float conversion: not for an extended80 source (R207). -/
def cvtDenormal (src : Fmt) (a : Word80) : Word16 :=
  match src with
  | .X => 0#16
  | f => denormal1 f a

/-- `CvtFF(src, dst, a)` (48_converter.md R207): always at the destination's full precision. -/
def cvtFF (P : Config.Params) (c : Context) (src dst : Fmt) (a : Word80) : Result :=
  if unsupported src a then invalidResult P dst
  else if isNaN src a then cvtNaN src dst a
  else if isInf src a then { value := packInf dst (signOf src a), flags := 0#16 }
  else if isZero src a then { value := packZero dst (signOf src a), flags := 0#16 }
  else
    let u := unpack src a
    (roundPack P c dst (precBits dst) u.sign u.m u.q false).also (cvtDenormal src a)

/-- `CvtIF(w, dst, n)` (48_converter.md R215): the magnitude is taken over the integers. -/
def cvtIF (P : Config.Params) (c : Context) (dst : Fmt) (n : Int) : Result :=
  if n = 0 then { value := packZero dst false, flags := 0#16 }
  else roundPack P c dst (precBits dst) (decide (n < 0)) n.natAbs 0 false

/-- FCVT float to float. -/
def fcvtFFOp (src dst : Fmt) (c : Context) (a : Word80) : Result := cvtFF Config.fpe1 c src dst (fltOperand src a)

/-- FCVT integer to float (R214, R215). -/
def fcvtIFOp (t : IntTy) (dst : Fmt) (c : Context) (a : Word80) : Result := cvtIF Config.fpe1 c dst (intOperand t a)

/-- FCVT.D.S (48_converter.md R208). -/
def execFcvtDS (s : State) : Host.Outcome State Fault Refusal := command1 (fcvtFFOp .S .D) s
/-- FCVT.X.S (48_converter.md R209). -/
def execFcvtXS (s : State) : Host.Outcome State Fault Refusal := command1 (fcvtFFOp .S .X) s
/-- FCVT.X.D (48_converter.md R210). -/
def execFcvtXD (s : State) : Host.Outcome State Fault Refusal := command1 (fcvtFFOp .D .X) s
/-- FCVT.S.D (48_converter.md R211). -/
def execFcvtSD (s : State) : Host.Outcome State Fault Refusal := command1 (fcvtFFOp .D .S) s
/-- FCVT.S.X (48_converter.md R212). -/
def execFcvtSX (s : State) : Host.Outcome State Fault Refusal := command1 (fcvtFFOp .X .S) s
/-- FCVT.D.X (48_converter.md R213). -/
def execFcvtDX (s : State) : Host.Outcome State Fault Refusal := command1 (fcvtFFOp .X .D) s
/-- FCVT.S.W (R216). -/
def execFcvtSW (s : State) : Host.Outcome State Fault Refusal := command1 (fcvtIFOp .W .S) s
/-- FCVT.D.W (R217). -/
def execFcvtDW (s : State) : Host.Outcome State Fault Refusal := command1 (fcvtIFOp .W .D) s
/-- FCVT.X.W (R218). -/
def execFcvtXW (s : State) : Host.Outcome State Fault Refusal := command1 (fcvtIFOp .W .X) s
/-- FCVT.S.L (R219). -/
def execFcvtSL (s : State) : Host.Outcome State Fault Refusal := command1 (fcvtIFOp .L .S) s
/-- FCVT.D.L (R220). -/
def execFcvtDL (s : State) : Host.Outcome State Fault Refusal := command1 (fcvtIFOp .L .D) s
/-- FCVT.X.L (R221). -/
def execFcvtXL (s : State) : Host.Outcome State Fault Refusal := command1 (fcvtIFOp .L .X) s

end Sys2Proof.Machine
end

