-- ==== Sys2Proof/Machine/Divider.lean ====
section
/-! DEFINITION. ieee754_divider (44_divider.md): FDIV. -/

namespace Sys2Proof.Machine

/-- The quotient of two finite nonzero values, truncated at `k = 2P + 2` bits with a sticky bit, and rounded once
(the last lines of 44_divider.md R136). `P` is the format's full precision whatever CTRL.PC. -/
def divFinite (P : Config.Params) (c : Context) (f : Fmt) (sz : Bool) (ua ub : Unpacked) : Result :=
  let k := 2 * precBits f + 2
  let N := ua.m * 2 ^ k
  roundPack P c f (arithPrec c f) sz (N / ub.m) (ua.q - ub.q - k) (N % ub.m != 0)

/-- `DivCore(fmt, a, b)` (44_divider.md R136): the zero divisor comes before the denormal check. -/
def divCore (P : Config.Params) (c : Context) (f : Fmt) (a b : Word80) : Result :=
  let sz := signOf f a ^^ signOf f b
  if unsupported f a || unsupported f b then invalidResult P f
  else if isNaN f a || isNaN f b then propagateNaN c f a b
  else if (isInf f a && isInf f b) || (isZero f a && isZero f b) then invalidResult P f
  else if isZero f b && !isInf f a then { value := packInf f sz, flags := raise [.divbyzero] }
  else if isInf f a then { value := packInf f sz, flags := denormal2 f a b }
  else if isInf f b then { value := packZero f sz, flags := denormal2 f a b }
  else if isZero f a then { value := packZero f sz, flags := denormal2 f a b }
  else (divFinite P c f sz (unpack f a) (unpack f b)).also (denormal2 f a b)

/-- FDIV of a format: OPA is the dividend, OPB the divisor (44_divider.md R135). -/
def fdivOp (f : Fmt) (c : Context) (a b : Word80) : Result :=
  divCore Config.fpe1 c f (fltOperand f a) (fltOperand f b)

/-- FDIV.S (44_divider.md R138). -/
def execFdivS (s : State) : Host.Outcome State Fault Refusal := command2 (fdivOp .S) s
/-- FDIV.D (R139). -/
def execFdivD (s : State) : Host.Outcome State Fault Refusal := command2 (fdivOp .D) s
/-- FDIV.X (R140). -/
def execFdivX (s : State) : Host.Outcome State Fault Refusal := command2 (fdivOp .X) s

end Sys2Proof.Machine
end

