-- ==== Sys2Proof/Machine/FloatToInt.lean ====
section
/-! DEFINITION. ieee754_converter part 2 (49_float_to_int.md): float to integer, rounding (FCVT) and truncating
(FCVTT). -/

namespace Sys2Proof.Machine

/-- Is an integer representable in the signed type (49_float_to_int.md R222)? -/
def inRange (t : IntTy) (v : Int) : Bool :=
  decide (-(2 ^ (intBits t - 1)) ≤ v) && decide (v ≤ 2 ^ (intBits t - 1) - 1)

/-- An invalid conversion: `raise invalid`, the sentinel, and nothing else (R222, R223). -/
def invalidInt (P : Config.Params) (t : IntTy) : Result :=
  { value := intIndefinite P t, flags := raise [.invalid] }

/-- `CvtFI(src, w, a, trunc)` (49_float_to_int.md R222). A subnormal operand raises no `denormal`. -/
def cvtFI (P : Config.Params) (c : Context) (src : Fmt) (t : IntTy) (a : Word80) (trunc : Bool) : Result :=
  if unsupported src a || isNaN src a || isInf src a then invalidInt P t
  else if isZero src a then { value := 0#80, flags := 0#16 }
  else
    let u := unpack src a
    let r := roundAt (if trunc then .towardZero else c.rm) u.sign u.m u.q false 0
    let v := signedInt u.sign r.m
    if inRange t v then { value := intResult t v, flags := raiseIf r.inexact .inexact } else invalidInt P t

/-- FCVT (`trunc` false) or FCVTT (`trunc` true), float to integer. -/
def fcvtFIOp (trunc : Bool) (src : Fmt) (t : IntTy) (c : Context) (a : Word80) : Result :=
  cvtFI Config.fpe1 c src t (fltOperand src a) trunc

/-- FCVT.W.S (49_float_to_int.md R224). -/
def execFcvtWS (s : State) : Host.Outcome State Fault Refusal := command1 (fcvtFIOp false .S .W) s
/-- FCVT.L.S (49_float_to_int.md R225). -/
def execFcvtLS (s : State) : Host.Outcome State Fault Refusal := command1 (fcvtFIOp false .S .L) s
/-- FCVT.W.D (49_float_to_int.md R226). -/
def execFcvtWD (s : State) : Host.Outcome State Fault Refusal := command1 (fcvtFIOp false .D .W) s
/-- FCVT.L.D (49_float_to_int.md R227). -/
def execFcvtLD (s : State) : Host.Outcome State Fault Refusal := command1 (fcvtFIOp false .D .L) s
/-- FCVT.W.X (49_float_to_int.md R228). -/
def execFcvtWX (s : State) : Host.Outcome State Fault Refusal := command1 (fcvtFIOp false .X .W) s
/-- FCVT.L.X (49_float_to_int.md R229). -/
def execFcvtLX (s : State) : Host.Outcome State Fault Refusal := command1 (fcvtFIOp false .X .L) s
/-- FCVTT.W.S (49_float_to_int.md R230). -/
def execFcvttWS (s : State) : Host.Outcome State Fault Refusal := command1 (fcvtFIOp true .S .W) s
/-- FCVTT.L.S (49_float_to_int.md R231). -/
def execFcvttLS (s : State) : Host.Outcome State Fault Refusal := command1 (fcvtFIOp true .S .L) s
/-- FCVTT.W.D (49_float_to_int.md R232). -/
def execFcvttWD (s : State) : Host.Outcome State Fault Refusal := command1 (fcvtFIOp true .D .W) s
/-- FCVTT.L.D (49_float_to_int.md R233). -/
def execFcvttLD (s : State) : Host.Outcome State Fault Refusal := command1 (fcvtFIOp true .D .L) s
/-- FCVTT.W.X (49_float_to_int.md R234). -/
def execFcvttWX (s : State) : Host.Outcome State Fault Refusal := command1 (fcvtFIOp true .X .W) s
/-- FCVTT.L.X (49_float_to_int.md R235). -/
def execFcvttLX (s : State) : Host.Outcome State Fault Refusal := command1 (fcvtFIOp true .X .L) s

end Sys2Proof.Machine
end

