-- ==== Sys2Proof/Machine/Multiplier.lean ====
section
/-! DEFINITION. ieee754_multiplier (43_multiplier.md): FMUL. -/

namespace Sys2Proof.Machine

/-- `MulCore(fmt, a, b)` (43_multiplier.md R126): the full double-width product, rounded once. -/
def mulCore (P : Config.Params) (c : Context) (f : Fmt) (a b : Word80) : Result :=
  let sz := signOf f a ^^ signOf f b
  if unsupported f a || unsupported f b then invalidResult P f
  else if isNaN f a || isNaN f b then propagateNaN c f a b
  else if (isInf f a && isZero f b) || (isZero f a && isInf f b) then invalidResult P f
  else if isInf f a || isInf f b then { value := packInf f sz, flags := denormal2 f a b }
  else if isZero f a || isZero f b then { value := packZero f sz, flags := denormal2 f a b }
  else
    let ua := unpack f a
    let ub := unpack f b
    (roundPack P c f (arithPrec c f) sz (ua.m * ub.m) (ua.q + ub.q) false).also (denormal2 f a b)

/-- FMUL of a format. -/
def fmulOp (f : Fmt) (c : Context) (a b : Word80) : Result :=
  mulCore Config.fpe1 c f (fltOperand f a) (fltOperand f b)

/-- FMUL.S (43_multiplier.md R128). -/
def execFmulS (s : State) : Host.Outcome State Fault Refusal := command2 (fmulOp .S) s
/-- FMUL.D (R129). -/
def execFmulD (s : State) : Host.Outcome State Fault Refusal := command2 (fmulOp .D) s
/-- FMUL.X (R130). -/
def execFmulX (s : State) : Host.Outcome State Fault Refusal := command2 (fmulOp .X) s

end Sys2Proof.Machine
end

