-- ==== Sys2Proof/Machine/Rint.lean ====
section
/-! DEFINITION. Round to integral in the same format (46_round_to_int.md): FRINT. -/

namespace Sys2Proof.Machine

/-- The neighbouring integer of a finite nonzero value `a`, unpacked as `u` (the last lines of 46_round_to_int.md
R156). CTRL.PC and CTRL.FTZ are not read. -/
def rintFinite (c : Context) (f : Fmt) (a : Word80) (u : Unpacked) : Result :=
  if 0 ≤ u.q then { value := a, flags := 0#16 }
  else
    let r := roundAt c.rm u.sign u.m u.q false 0
    { value := if r.m = 0 then packZero f u.sign else packFinite f u.sign r.m 0,
      flags := raiseIf r.inexact .inexact ||| raiseIf (r.inexact && r.up && f == .X) .plu }

/-- `RintCore(fmt, a)` (46_round_to_int.md R155, R156). -/
def rintCore (P : Config.Params) (c : Context) (f : Fmt) (a : Word80) : Result :=
  if unsupported f a then invalidResult P f
  else if isNaN f a then quietNaNResult f a
  else if isZero f a || isInf f a then { value := a, flags := 0#16 }
  else (rintFinite c f a (unpack f a)).also (denormal1 f a)

/-- FRINT of a format. -/
def frintOp (f : Fmt) (c : Context) (a : Word80) : Result := rintCore Config.fpe1 c f (fltOperand f a)

/-- FRINT.S (46_round_to_int.md R158). -/
def execFrintS (s : State) : Host.Outcome State Fault Refusal := command1 (frintOp .S) s
/-- FRINT.D (R159). -/
def execFrintD (s : State) : Host.Outcome State Fault Refusal := command1 (frintOp .D) s
/-- FRINT.X (R160). -/
def execFrintX (s : State) : Host.Outcome State Fault Refusal := command1 (frintOp .X) s

end Sys2Proof.Machine
end

