-- ==== Sys2Proof/Machine/Sqrt.lean ====
section
/-! DEFINITION. ieee754_sqrt (45_sqrt.md): FSQRT. -/

namespace Sys2Proof.Machine

/-- The root of a finite positive value: the exponent made even, `k = P + 2` extra root bits and a sticky bit,
rounded once (the last lines of 45_sqrt.md R146). -/
def sqrtFinite (P : Config.Params) (c : Context) (f : Fmt) (u : Unpacked) : Result :=
  let m := if u.q % 2 = 1 then u.m * 2 else u.m
  let q := if u.q % 2 = 1 then u.q - 1 else u.q
  let k := precBits f + 2
  let N := m * 2 ^ (2 * k)
  let r := isqrt N
  roundPack P c f (arithPrec c f) false r (q / 2 - k) (r * r != N)

/-- `SqrtCore(fmt, a)` (45_sqrt.md R145, R146). -/
def sqrtCore (P : Config.Params) (c : Context) (f : Fmt) (a : Word80) : Result :=
  if unsupported f a then invalidResult P f
  else if isNaN f a then quietNaNResult f a
  else if isZero f a then { value := a, flags := 0#16 }
  else if signOf f a then invalidResult P f
  else if isInf f a then { value := a, flags := 0#16 }
  else (sqrtFinite P c f (unpack f a)).also (denormal1 f a)

/-- FSQRT of a format. -/
def fsqrtOp (f : Fmt) (c : Context) (a : Word80) : Result := sqrtCore Config.fpe1 c f (fltOperand f a)

/-- FSQRT.S (45_sqrt.md R148). -/
def execFsqrtS (s : State) : Host.Outcome State Fault Refusal := command1 (fsqrtOp .S) s
/-- FSQRT.D (R149). -/
def execFsqrtD (s : State) : Host.Outcome State Fault Refusal := command1 (fsqrtOp .D) s
/-- FSQRT.X (R150). -/
def execFsqrtX (s : State) : Host.Outcome State Fault Refusal := command1 (fsqrtOp .X) s

end Sys2Proof.Machine
end

