-- ==== Sys2Proof/Machine/Dispatch.lean ====
section
/-! DEFINITION. One arm per command: each calls the command's own meaning. -/

namespace Sys2Proof.Machine

def exec (i : Instr) (s : State) : Host.Outcome State Fault Refusal :=
  match i with
  | .faddS => Sys2Proof.Machine.execFaddS s
  | .faddD => Sys2Proof.Machine.execFaddD s
  | .faddX => Sys2Proof.Machine.execFaddX s
  | .fsubS => Sys2Proof.Machine.execFsubS s
  | .fsubD => Sys2Proof.Machine.execFsubD s
  | .fsubX => Sys2Proof.Machine.execFsubX s
  | .fmulS => Sys2Proof.Machine.execFmulS s
  | .fmulD => Sys2Proof.Machine.execFmulD s
  | .fmulX => Sys2Proof.Machine.execFmulX s
  | .fdivS => Sys2Proof.Machine.execFdivS s
  | .fdivD => Sys2Proof.Machine.execFdivD s
  | .fdivX => Sys2Proof.Machine.execFdivX s
  | .fsqrtS => Sys2Proof.Machine.execFsqrtS s
  | .fsqrtD => Sys2Proof.Machine.execFsqrtD s
  | .fsqrtX => Sys2Proof.Machine.execFsqrtX s
  | .frintS => Sys2Proof.Machine.execFrintS s
  | .frintD => Sys2Proof.Machine.execFrintD s
  | .frintX => Sys2Proof.Machine.execFrintX s
  | .feqS => Sys2Proof.Machine.execFeqS s
  | .feqD => Sys2Proof.Machine.execFeqD s
  | .feqX => Sys2Proof.Machine.execFeqX s
  | .fltS => Sys2Proof.Machine.execFltS s
  | .fltD => Sys2Proof.Machine.execFltD s
  | .fltX => Sys2Proof.Machine.execFltX s
  | .fleS => Sys2Proof.Machine.execFleS s
  | .fleD => Sys2Proof.Machine.execFleD s
  | .fleX => Sys2Proof.Machine.execFleX s
  | .funS => Sys2Proof.Machine.execFunS s
  | .funD => Sys2Proof.Machine.execFunD s
  | .funX => Sys2Proof.Machine.execFunX s
  | .feqsS => Sys2Proof.Machine.execFeqsS s
  | .feqsD => Sys2Proof.Machine.execFeqsD s
  | .feqsX => Sys2Proof.Machine.execFeqsX s
  | .fltsS => Sys2Proof.Machine.execFltsS s
  | .fltsD => Sys2Proof.Machine.execFltsD s
  | .fltsX => Sys2Proof.Machine.execFltsX s
  | .flesS => Sys2Proof.Machine.execFlesS s
  | .flesD => Sys2Proof.Machine.execFlesD s
  | .flesX => Sys2Proof.Machine.execFlesX s
  | .funsS => Sys2Proof.Machine.execFunsS s
  | .funsD => Sys2Proof.Machine.execFunsD s
  | .funsX => Sys2Proof.Machine.execFunsX s
  | .fcmpS => Sys2Proof.Machine.execFcmpS s
  | .fcmpD => Sys2Proof.Machine.execFcmpD s
  | .fcmpX => Sys2Proof.Machine.execFcmpX s
  | .fcmpsS => Sys2Proof.Machine.execFcmpsS s
  | .fcmpsD => Sys2Proof.Machine.execFcmpsD s
  | .fcmpsX => Sys2Proof.Machine.execFcmpsX s
  | .fcvtDS => Sys2Proof.Machine.execFcvtDS s
  | .fcvtXS => Sys2Proof.Machine.execFcvtXS s
  | .fcvtSD => Sys2Proof.Machine.execFcvtSD s
  | .fcvtXD => Sys2Proof.Machine.execFcvtXD s
  | .fcvtSX => Sys2Proof.Machine.execFcvtSX s
  | .fcvtDX => Sys2Proof.Machine.execFcvtDX s
  | .fcvtSW => Sys2Proof.Machine.execFcvtSW s
  | .fcvtDW => Sys2Proof.Machine.execFcvtDW s
  | .fcvtXW => Sys2Proof.Machine.execFcvtXW s
  | .fcvtSL => Sys2Proof.Machine.execFcvtSL s
  | .fcvtDL => Sys2Proof.Machine.execFcvtDL s
  | .fcvtXL => Sys2Proof.Machine.execFcvtXL s
  | .fcvtWS => Sys2Proof.Machine.execFcvtWS s
  | .fcvtLS => Sys2Proof.Machine.execFcvtLS s
  | .fcvtWD => Sys2Proof.Machine.execFcvtWD s
  | .fcvtLD => Sys2Proof.Machine.execFcvtLD s
  | .fcvtWX => Sys2Proof.Machine.execFcvtWX s
  | .fcvtLX => Sys2Proof.Machine.execFcvtLX s
  | .fcvttWS => Sys2Proof.Machine.execFcvttWS s
  | .fcvttLS => Sys2Proof.Machine.execFcvttLS s
  | .fcvttWD => Sys2Proof.Machine.execFcvttWD s
  | .fcvttLD => Sys2Proof.Machine.execFcvttLD s
  | .fcvttWX => Sys2Proof.Machine.execFcvttWX s
  | .fcvttLX => Sys2Proof.Machine.execFcvttLX s
  | .fclassS => Sys2Proof.Machine.execFclassS s
  | .fclassD => Sys2Proof.Machine.execFclassD s
  | .fclassX => Sys2Proof.Machine.execFclassX s
  | .fsnanS => Sys2Proof.Machine.execFsnanS s
  | .fsnanD => Sys2Proof.Machine.execFsnanD s
  | .fsnanX => Sys2Proof.Machine.execFsnanX s

end Sys2Proof.Machine
end

