-- ==== Sys2Proof/Machine/Transaction.lean ====
section
/-! DEFINITION. The host's transactions (30_encoding.md R40, R41) and the fetch of the next one. -/

namespace Sys2Proof.Machine

/-- The command step on `WR 5, w` (30_encoding.md R44): the word is decoded and its command performed; a reserved
word is refused by name (R52). The word is not stored (10_state.md R23). -/
def commandStep (w : Word16) (s : State) : Host.Outcome State Fault Refusal :=
  match decode Config.fpe1 w with
  | .ok i => exec i s
  | .error why => .refused (.reservedWord why)

/-- `WR n, v` (30_encoding.md R40, R41). -/
def hostWrite (n : Nat) (v : Word80) (s : State) : Host.Outcome State Fault Refusal :=
  match n with
  | 0 => .next (writeOpa v s)
  | 1 => .next (writeOpb v s)
  | 2 => .refused .resReadOnly
  | 3 => .next (writeCtrl v s)
  | 4 => .next (writeFlags v s)
  | 5 => commandStep (v.setWidth 16) s
  | _ => .refused .noSuchRegister

/-- `RD n` (30_encoding.md R40, R41): the value goes to the host, and nothing in the block changes (20_memory.md
R37). -/
def hostRead (n : Nat) (s : State) : Host.Outcome State Fault Refusal :=
  match readRegister n s with
  | .ok v => .next (record n v s)
  | .error why => .refused why

/-- One event. A write of 'the value read' carries the newest reading (30_encoding.md R57; log entry 7). -/
def perform (e : HostEvent) (s : State) : Host.Outcome State Fault Refusal :=
  match e with
  | .wr n v => hostWrite n v s
  | .rd n => hostRead n s
  | .wrRead n =>
    match s.readings with
    | [] => .refused .nothingRead
    | r :: _ => hostWrite n r.value s
  | .reset => .next (resetBlock s)

/-- Take the next transaction of the host's script: in issue order, one at a time (30_encoding.md R41, R56). The
block never starts an event by itself, so with none pending nothing happens (70_reset_and_hazards.md R261). -/
def performNext (s : State) : Host.Outcome State Fault Refusal :=
  match s.script with
  | [] => .next s
  | e :: rest => perform e { s with script := rest }

/-- The host's issue of one command word, from a block whose operands it has prepared as 70_reset_and_hazards.md
R262 asks ('write OPA (and OPB for a two-operand command)'): an operand register that holds no value counts as
written with what stands in it, and the write of CMD is the next transaction (log entry 6). -/
def issueWord (w : Word16) (s : State) : State :=
  { s with opaHeld := true, opbHeld := true, script := .wr 5 (w.setWidth 80) :: s.script }

/-- `CLRF` (30_encoding.md R57). -/
def clrf : List HostEvent := [.wr 4 0x0000#80]

/-- `SETCTX rm, pc, nan, ftz` (R57). -/
def setctx (rm pc : BitVec 2) (nan ftz : Bool) : List HostEvent :=
  [.wr 3 ((BitVec.ofBool ftz ++ BitVec.ofBool nan ++ pc ++ rm).setWidth 80)]

/-- `MOVR OPA` (`n = 0`) or `MOVR OPB` (`n = 1`): `RD RES`, then a write of the value read (R57,
70_reset_and_hazards.md R266). -/
def movr (n : Nat) : List HostEvent := [.rd 2, .wrRead n]

/-- `<MNEMONIC>`: shorthand for `WR CMD, <the word of that mnemonic>` (R56). -/
def command (i : Instr) : List HostEvent := [.wr 5 ((encode i).setWidth 80)]

/-- The transactions that restore a saved state (70_reset_and_hazards.md R274): OPA, OPB, CTRL, FLAGS; RES cannot
be written. -/
def restoreScript (opa opb : Word80) (ctrl flags : Word16) : List HostEvent :=
  [.wr 0 opa, .wr 1 opb, .wr 3 (ctrl.setWidth 80), .wr 4 (flags.setWidth 80)]

end Sys2Proof.Machine
end

