-- ==== Sys2Proof/Machine/Step.lean ====
section
/-! DEFINITION. One step of the machine: the host's next transaction (30_encoding.md R41, log entry 1). -/

namespace Sys2Proof.Machine

/-- One step: the first pending transaction of the host's script is performed as one atomic event. -/
def step (s : State) : Host.Outcome State Fault Refusal := performNext s

/-- `s` with the command whose bits are `w` as the host's next transaction (log entry 6). Bits from `nbits` up are
zero. -/
def State.withFetchWord (s : State) (nbits w : Nat) : State := issueWord (BitVec.ofNat 16 (w % 2 ^ nbits)) s

end Sys2Proof.Machine
end

