-- ==== Sys2Proof/Machine/ByteImage.lean ====
section
/-! DEFINITION. The byte image of a packed value in the host's memory (20_memory.md R33 to R35): least significant
byte at the lowest address. The block itself never uses it (R30). -/

namespace Sys2Proof.Machine

/-- Bytes of a format's image: 4, 8, 10 (20_memory.md R33). -/
def imageBytes : Fmt → Nat
  | .S => 4
  | .D => 8
  | .X => 10

/-- Byte `i` of a packed value: bits `8i+7 : 8i` (R33). -/
def byteAt (v : Word80) (i : Nat) : BitVec 8 := v.extractLsb' (8 * i) 8

/-- `ToBytes(fmt, v)` (R33). -/
def toBytes (f : Fmt) (v : Word80) : List (BitVec 8) := (List.range (imageBytes f)).map (byteAt v)

/-- The sum of `B[i] * 2^(8i)`. -/
def bytesValue : List (BitVec 8) → Nat
  | [] => 0
  | b :: bs => b.toNat + 2 ^ 8 * bytesValue bs

/-- `FromBytes(fmt, B)` of the first 4, 8 or 10 bytes (R33); further bytes are padding and ignored (R35). -/
def fromBytes (f : Fmt) (bs : List (BitVec 8)) : Word80 := BitVec.ofNat 80 (bytesValue (bs.take (imageBytes f)))

/-- The 16-byte container of an extended80 value: bytes 10 to 15 are written as 0 (R35). -/
def toContainer (v : Word80) : List (BitVec 8) := toBytes .X v ++ List.replicate 6 0#8

end Sys2Proof.Machine
end

