-- ==== Sys2Proof/Machine/Value.lean ====
section
/-! DEFINITION. Exact values: what a packed value stands for, as a rational number (40_codec.md R73, R76; 47_compare.md
R167), and what it means to describe and to round a real number (41_rounder.md R90, R94). No command computes with
these; claims are stated in them. -/

namespace Sys2Proof.Machine

/-- `(-1)^s`. -/
def signFactor (s : Bool) : ℚ := if s then -1 else 1

/-- `Val(fmt,a)` of a finite value: the exact rational `(-1)^s * m * 2^q` (40_codec.md R73). DESIGN CHOICE: infinities
and NaNs have no `Val` in the spec; here it is the value of the triple `unpack` gives, and no statement uses it there
(log entry 18). -/
def val (f : Fmt) (a : Word80) : ℚ :=
  signFactor (unpack f a).sign * (unpack f a).m * 2 ^ (unpack f a).q

/-- An extended real value (47_compare.md R167). -/
inductive ExtVal where
  | negInf
  | fin (v : ℚ)
  | posInf
  deriving DecidableEq

/-- `ExtVal(fmt,a)` of a non-NaN value (R167); `Val` of either zero is 0. -/
def extVal (f : Fmt) (a : Word80) : ExtVal :=
  match classify f a with
  | .negInfinity => .negInf
  | .posInfinity => .posInf
  | _ => .fin (val f a)

/-- The order of the extended real numbers: −∞ lowest, +∞ highest (R167). -/
def ExtVal.relation : ExtVal → ExtVal → Relation
  | .negInf, .negInf => .equal
  | .negInf, .fin _ => .less
  | .negInf, .posInf => .less
  | .fin _, .negInf => .greater
  | .fin x, .fin y => if x < y then .less else if x = y then .equal else .greater
  | .fin _, .posInf => .less
  | .posInf, .negInf => .greater
  | .posInf, .fin _ => .greater
  | .posInf, .posInf => .equal

/-- A positive value is a member of a format at precision `p`: with `e = floor(log2 v)`, `e <= emax` and `v` is an
integer multiple of `2^(max(e, emin) - (p - 1))` (40_codec.md R76). -/
def IsMember (f : Fmt) (p : Nat) (v : ℚ) : Prop :=
  ∃ (e : Int) (n : Nat), (2 : ℚ) ^ e ≤ v ∧ v < 2 ^ (e + 1) ∧ e ≤ emax f ∧ v = n * 2 ^ (max e (emin f) - (p - 1))

/-- `(sig, exp, sticky)` describe the exact magnitude `x` (41_rounder.md R90). -/
def Describes (sig : Nat) (exp : Int) (sticky : Bool) (x : ℝ) : Prop :=
  if sticky then (sig : ℝ) * 2 ^ exp < x ∧ x < (sig + 1) * 2 ^ exp else x = sig * 2 ^ exp

/-- `m * 2^q` is the value that rounding mode `rm` gives for `x` at the quantum `2^q`, the sign of the result being
`s` (41_rounder.md R93, R94): one of the two multiples that bracket `x`; under nearest-even the closer one, and on a
tie the even one; otherwise the one on the side the mode asks for. -/
def RoundsTo (rm : Rounding) (s : Bool) (x : ℝ) (q : Int) (m : Nat) : Prop :=
  |(m : ℝ) * 2 ^ q - x| < 2 ^ q ∧
  match rm with
  | .nearestEven =>
    2 * |(m : ℝ) * 2 ^ q - x| ≤ 2 ^ q ∧ (2 * |(m : ℝ) * 2 ^ q - x| = 2 ^ q → Even m)
  | .towardNegative => if s then x ≤ m * 2 ^ q else (m : ℝ) * 2 ^ q ≤ x
  | .towardPositive => if s then (m : ℝ) * 2 ^ q ≤ x else x ≤ m * 2 ^ q
  | .towardZero => (m : ℝ) * 2 ^ q ≤ x

end Sys2Proof.Machine
end

