-- ==== Sys2Proof/Safety.lean ====
section
/-! DEFINITION. The terms claims use: when a command may run, what its completion is, what a good state is, and the
commands of a family by format. -/

namespace Sys2Proof.Machine

/-- A command executes normally exactly when CTRL.PC is not the reserved code and every operand register it reads
holds a value (30_encoding.md R44; 10_state.md R17, R27). -/
def Ready (i : Instr) (s : State) : Prop :=
  s.ctrl.extractLsb' 2 2 ≠ 1#2 ∧ s.opaHeld = true ∧ (readsOpb i = true → s.opbHeld = true)

/-- The command may run, and `c` is its Status Context. -/
def ReadyUnder (i : Instr) (s : State) (c : Context) : Prop :=
  contextOf s.ctrl = some c ∧ s.opaHeld = true ∧ (readsOpb i = true → s.opbHeld = true)

/-- The command completes with the result `r`: RES takes the value, FLAGS is ORed with the flags, and nothing else
changes (30_encoding.md R44). -/
def Completes (i : Instr) (s : State) (r : Result) : Prop :=
  exec i s = .next { s with res := r.value, resHeld := true, flags := s.flags ||| r.flags }

/-- RES after the command, where it completes. -/
def resultOf (i : Instr) (s : State) : Option Word80 :=
  match exec i s with
  | .next t => some t.res
  | .fault _ => none
  | .refused _ => none

/-- `n` steps lead from `s` to `t` with no refusal on the way: a safe run. -/
def RunsTo (n : Nat) (s t : State) : Prop := Host.Core.run core n s = .next t

/-- The reserved bits of CTRL and FLAGS are 0 (10_state.md R16, R19). -/
def ReservedBitsZero (s : State) : Prop := s.ctrl &&& 0xFFC0#16 = 0#16 ∧ s.flags &&& 0xFDC0#16 = 0#16

/-- A flag bit is set in a FLAGS value. -/
def HasFlag (w : Word16) (fl : Flag) : Prop := w &&& fl.bit ≠ 0#16

/-- The first operand of a command of format `f`: OPA at the format's width (10_state.md R14). -/
def opA (f : Fmt) (s : State) : Word80 := fltOperand f s.opa

/-- The second operand of a command of format `f`: OPB at the format's width (10_state.md R14). -/
def opB (f : Fmt) (s : State) : Word80 := fltOperand f s.opb

/-- FADD of a format. -/
def faddI (f : Fmt) : Instr := byFmt f .faddS .faddD .faddX
/-- FSUB of a format. -/
def fsubI (f : Fmt) : Instr := byFmt f .fsubS .fsubD .fsubX
/-- FMUL of a format. -/
def fmulI (f : Fmt) : Instr := byFmt f .fmulS .fmulD .fmulX
/-- FDIV of a format. -/
def fdivI (f : Fmt) : Instr := byFmt f .fdivS .fdivD .fdivX
/-- FSQRT of a format. -/
def fsqrtI (f : Fmt) : Instr := byFmt f .fsqrtS .fsqrtD .fsqrtX
/-- FRINT of a format. -/
def frintI (f : Fmt) : Instr := byFmt f .frintS .frintD .frintX
/-- FEQ (quiet) or FEQS (signaling) of a format. -/
def feqI (sg : Bool) (f : Fmt) : Instr := if sg then byFmt f .feqsS .feqsD .feqsX else byFmt f .feqS .feqD .feqX
/-- FLT or FLTS of a format. -/
def fltI (sg : Bool) (f : Fmt) : Instr := if sg then byFmt f .fltsS .fltsD .fltsX else byFmt f .fltS .fltD .fltX
/-- FLE or FLES of a format. -/
def fleI (sg : Bool) (f : Fmt) : Instr := if sg then byFmt f .flesS .flesD .flesX else byFmt f .fleS .fleD .fleX
/-- FUN or FUNS of a format. -/
def funI (sg : Bool) (f : Fmt) : Instr := if sg then byFmt f .funsS .funsD .funsX else byFmt f .funS .funD .funX
/-- FCMP or FCMPS of a format. -/
def fcmpI (sg : Bool) (f : Fmt) : Instr := if sg then byFmt f .fcmpsS .fcmpsD .fcmpsX else byFmt f .fcmpS .fcmpD .fcmpX
/-- FCVT from a float format to another; none where they are equal. -/
def fcvtFFI (src dst : Fmt) : Option Instr := cvtFFInstr src dst
/-- FCVT from an integer type to a float format. -/
def fcvtIFI (t : IntTy) (dst : Fmt) : Instr := cvtIFInstr t dst
/-- FCVT (rounding) or FCVTT (truncating) from a float format to an integer type. -/
def fcvtFII (trunc : Bool) (src : Fmt) (t : IntTy) : Instr :=
  match trunc, t with
  | false, .W => byFmt src .fcvtWS .fcvtWD .fcvtWX
  | false, .L => byFmt src .fcvtLS .fcvtLD .fcvtLX
  | true, .W => byFmt src .fcvttWS .fcvttWD .fcvttWX
  | true, .L => byFmt src .fcvttLS .fcvttLD .fcvttLX
/-- FCLASS of a format. -/
def fclassI (f : Fmt) : Instr := byFmt f .fclassS .fclassD .fclassX
/-- FSNAN of a format. -/
def fsnanI (f : Fmt) : Instr := byFmt f .fsnanS .fsnanD .fsnanX

end Sys2Proof.Machine
end

