-- ==== Sys2Proof/Certificates/Slice0/Obligations.lean ====
section
/-! DEFINITION. The statements for the provers, one `def Obligations.<Name> : Prop` each. The rule each formalises is
named in its docstring; where a clause rests on a choice of the model, the docstring names the log entry. -/

open Sys2Proof Sys2Proof.Machine

/-! ### The step, the decoder and the host's transactions -/

/-- 30_encoding.md R44, R41: when the host's next transaction writes CMD with a word that decodes to a well-formed
command, the step is that command's meaning on the state with that transaction taken off the script. That one step
takes one transaction of the script, and that a write of CMD carried at 80 bits gives its low 16 as the word, are the
model's choices (log entries 1 and 5). -/
def Obligations.StepRunsTheDecodedCommand : Prop :=
  ∀ (s : State) (v : Word80) (rest : List HostEvent) (i : Instr),
    s.script = .wr 5 v :: rest → decode Config.fpe1 (v.setWidth 16) = .ok i → i.wf Config.fpe1 = true →
    step s = exec i { s with script := rest }

/-- 30_encoding.md R52: the command step refuses every word that is not one of the 78, in every state: it is neither a
no-op nor a trap. That the refusal is named for the reserved word also where another ground of R44 holds is the model's
choice (log entry 12). -/
def Obligations.ReservedWordsAreRefused : Prop :=
  ∀ (s : State) (w : Word16), (∀ i : Instr, encode i ≠ w) → ∃ why, commandStep w s = .refused (.reservedWord why)

/-- 30_encoding.md R52, R58, R59: over all 65536 words, the decoder accepts exactly the words of the table, each as
the command the table gives it. Both directions: decode of encode is the command, and nothing else is accepted. -/
def Obligations.DecoderAcceptsExactlyTheTable : Prop :=
  ∀ (w : Word16) (i : Instr), decode Config.fpe1 w = .ok i ↔ w = encode i

/-- 30_encoding.md R59: a word of each group, written out, decodes to the command of its row. -/
def Obligations.WordsOfEachGroupDecode : Prop :=
  decode Config.fpe1 0x0122#16 = .ok .fsubX ∧ decode Config.fpe1 0x0511#16 = .ok .frintD ∧
  decode Config.fpe1 0x192F#16 = .ok .fcmpsX ∧ decode Config.fpe1 0x2021#16 = .ok .fcvtDX ∧
  decode Config.fpe1 0x3090#16 = .ok .fcvtSL ∧ decode Config.fpe1 0x4118#16 = .ok .fcvttWD ∧
  decode Config.fpe1 0x510F#16 = .ok .fsnanS ∧ decode Config.fpe1 0x0001#16 = .error .formatsDiffer

/-- 30_encoding.md R47: with HAS_CMP = 0 every word of group 1 is reserved and every other word decodes as before,
whatever the other parameters are. That the reason named is the absent group, also for a group-1 word reserved for
another reason, is the model's choice (log entries 10 and 12). -/
def Obligations.WithoutTheComparisonGroupOnlyItsWordsChange : Prop :=
  ∀ (P : Config.Params) (w : Word16),
    decode { P with hasCmp := false } w =
      if w.extractLsb' 12 4 = 1#4 then .error .groupAbsent else decode P w

/-- 30_encoding.md R40, R57; 10_state.md R16, R19, R21, R27, R28; 70_reset_and_hazards.md R260, R261: what every host
transaction does, by register number, and that with no transaction pending the block does nothing. The model's choices
in it: the pending transactions are a list in State (log entry 1); a value read is put at the head of the list of
readings (entry 2); a read of OPA or OPB that holds no value returns some value, not said which (entry 4); the value of
a write is carried at 80 bits and a 16-bit register takes the low 16 (entry 5); a write of the value read last, to any
register number, is the write of that value, and is refused where nothing was read (entry 7); a reset event leaves the
host's script and readings (entry 11). -/
def Obligations.HostAccessesFollowTheRegisterMap : Prop :=
  ∀ (s : State) (rest : List HostEvent) (n : Nat) (v : Word80),
    (s.script = [] → step s = .next s) ∧
    (s.script = .wr 0 v :: rest → step s = .next { s with script := rest, opa := v, opaHeld := true }) ∧
    (s.script = .wr 1 v :: rest → step s = .next { s with script := rest, opb := v, opbHeld := true }) ∧
    (s.script = .wr 2 v :: rest → step s = .refused .resReadOnly) ∧
    (s.script = .wr 3 v :: rest → step s = .next { s with script := rest, ctrl := v.setWidth 16 &&& 0x003F#16 }) ∧
    (s.script = .wr 4 v :: rest → step s = .next { s with script := rest, flags := v.setWidth 16 &&& 0x023F#16 }) ∧
    (6 ≤ n → s.script = .wr n v :: rest → step s = .refused .noSuchRegister) ∧
    (s.opaHeld = true → s.script = .rd 0 :: rest →
      step s = .next { s with script := rest, readings := ⟨0, s.opa⟩ :: s.readings }) ∧
    (s.opbHeld = true → s.script = .rd 1 :: rest →
      step s = .next { s with script := rest, readings := ⟨1, s.opb⟩ :: s.readings }) ∧
    (s.resHeld = true → s.script = .rd 2 :: rest →
      step s = .next { s with script := rest, readings := ⟨2, s.res⟩ :: s.readings }) ∧
    (s.script = .rd 3 :: rest →
      step s = .next { s with script := rest, readings := ⟨3, (s.ctrl &&& 0x003F#16).setWidth 80⟩ :: s.readings }) ∧
    (s.script = .rd 4 :: rest →
      step s = .next { s with script := rest, readings := ⟨4, (s.flags &&& 0x023F#16).setWidth 80⟩ :: s.readings }) ∧
    (s.script = .rd 5 :: rest → step s = .refused .cmdWriteOnly) ∧
    (6 ≤ n → s.script = .rd n :: rest → step s = .refused .noSuchRegister) ∧
    (s.script = .wr 5 v :: rest → step s = commandStep (v.setWidth 16) { s with script := rest }) ∧
    (s.script = .reset :: rest → step s = .next { State.reset with script := rest, readings := s.readings }) ∧
    (s.opaHeld = false → s.script = .rd 0 :: rest →
      ∃ x, step s = .next { s with script := rest, readings := ⟨0, x⟩ :: s.readings }) ∧
    (s.opbHeld = false → s.script = .rd 1 :: rest →
      ∃ x, step s = .next { s with script := rest, readings := ⟨1, x⟩ :: s.readings }) ∧
    (s.resHeld = false → s.script = .rd 2 :: rest → step s = .refused .resUnwritten) ∧
    (s.readings = [] → s.script = .wrRead n :: rest → step s = .refused .nothingRead) ∧
    (∀ (r : Reading) (older : List Reading), s.readings = r :: older → s.script = .wrRead n :: rest →
      step s = step { s with script := .wr n r.value :: rest })

/-- 10_state.md R26: after reset CTRL is 0x000C, that is nearest-even, extended precision, largest-significand-wins
and no flush, and FLAGS is 0, with no flag set. -/
def Obligations.ResetLeavesTheStatedContext : Prop :=
  State.reset.ctrl = 0x000C#16 ∧ State.reset.flags = 0x0000#16 ∧
  contextOf State.reset.ctrl =
    some { rm := .nearestEven, prec := .extended, nanMode := .largestSignificand, ftz := false } ∧
  ∀ fl : Flag, ¬ HasFlag State.reset.flags fl

/-- 10_state.md R27: on reset OPA, OPB and RES hold no value; a command that reads an operand register the host has
not written, and a host read of RES before the first command, are refused; a host write gives a value. Which ground is
named where several hold (OPA before OPB) is the model's choice (log entry 12); the spec's 'unwritten' markers are the
three `Held` fields (log entry 3). -/
def Obligations.UnwrittenRegistersAreRefused : Prop :=
  (State.reset.opaHeld = false ∧ State.reset.opbHeld = false ∧ State.reset.resHeld = false) ∧
  (∀ (i : Instr) (s : State), s.ctrl.extractLsb' 2 2 ≠ 1#2 → s.opaHeld = false →
    exec i s = .refused .opaUnwritten) ∧
  (∀ (i : Instr) (s : State), s.ctrl.extractLsb' 2 2 ≠ 1#2 → s.opaHeld = true → readsOpb i = true →
    s.opbHeld = false → exec i s = .refused .opbUnwritten) ∧
  (∀ (s : State) (rest : List HostEvent), s.script = .rd 2 :: rest → s.resHeld = false →
    step s = .refused .resUnwritten) ∧
  (∀ (s : State) (rest : List HostEvent) (v : Word80),
    (s.script = .wr 0 v :: rest → step s = .next { s with script := rest, opa := v, opaHeld := true }) ∧
    (s.script = .wr 1 v :: rest → step s = .next { s with script := rest, opb := v, opbHeld := true }))

/-- 10_state.md R16, R17; 41_rounder.md R104: CTRL is misconfigured exactly when its PC field is 1, and every command is
then refused, whether or not it reads PC; every other CTRL gives the Status Context of its bits: the rounding mode by
RM, the precision by PC, with 24, 53 or 64 bits for extended80 arithmetic and the format's own for binary32 and
binary64, the NaN mode by bit 4 and the flush by bit 5. That the refusal is named for PC also where an operand register
holds no value is the model's choice (log entry 12). -/
def Obligations.ReservedPrecisionRefusesEveryCommand : Prop :=
  (∀ ctrl : Word16, contextOf ctrl = none ↔ ctrl.extractLsb' 2 2 = 1#2) ∧
  (∀ (ctrl : Word16) (c : Context), contextOf ctrl = some c →
    (ctrl.extractLsb' 0 2 = 0#2 → c.rm = .nearestEven) ∧
    (ctrl.extractLsb' 0 2 = 1#2 → c.rm = .towardNegative) ∧
    (ctrl.extractLsb' 0 2 = 2#2 → c.rm = .towardPositive) ∧
    (ctrl.extractLsb' 0 2 = 3#2 → c.rm = .towardZero) ∧
    (ctrl.extractLsb' 2 2 = 0#2 → c.prec = .single ∧ arithPrec c .X = 24) ∧
    (ctrl.extractLsb' 2 2 = 2#2 → c.prec = .double ∧ arithPrec c .X = 53) ∧
    (ctrl.extractLsb' 2 2 = 3#2 → c.prec = .extended ∧ arithPrec c .X = 64) ∧
    arithPrec c .S = 24 ∧ arithPrec c .D = 53 ∧
    (ctrl.getLsbD 4 = false → c.nanMode = .largestSignificand) ∧
    (ctrl.getLsbD 4 = true → c.nanMode = .firstOperand) ∧
    c.ftz = ctrl.getLsbD 5) ∧
  ∀ (i : Instr) (s : State), s.ctrl.extractLsb' 2 2 = 1#2 → exec i s = .refused .reservedPrecision

/-- 30_encoding.md R44: every one of the 78 commands completes when CTRL.PC is not the reserved code and the operand
registers it reads hold a value, changing only RES and FLAGS, FLAGS by an OR; and it is refused otherwise. -/
def Obligations.EveryReadyCommandCompletes : Prop :=
  ∀ (i : Instr) (s : State),
    (Ready i s → ∃ r : Result, Completes i s r) ∧ (¬ Ready i s → ∃ why, exec i s = .refused why)

/-- 10_state.md R25, 00_scope.md R8, 30_encoding.md R44: two commands with equal OPA, CTRL and word, and equal OPB where
the command reads OPB, write equal RES and add equal flags, whatever else the two states hold. -/
def Obligations.EqualInputsGiveEqualResults : Prop :=
  ∀ (i : Instr) (s t : State), s.opa = t.opa → (readsOpb i = true → s.opb = t.opb) → s.ctrl = t.ctrl →
    Ready i s → Ready i t →
    ∃ r : Result, Completes i s r ∧ Completes i t r

/-- 10_state.md R14, 30_encoding.md R44: the bits of an operand register above the operand's width are ignored by the
command, and a one-operand command ignores all of OPB. -/
def Obligations.BitsAboveTheOperandAreIgnored : Prop :=
  ∀ (i : Instr) (s : State) (a b : Word80),
    a.setWidth (srcType i).bits = s.opa.setWidth (srcType i).bits →
    (readsOpb i = true → b.setWidth (srcType i).bits = s.opb.setWidth (srcType i).bits) → Ready i s →
    ∃ r : Result, Completes i s r ∧ Completes i { s with opa := a, opb := b } r

/-- 10_state.md R14: a result narrower than 80 bits is written zero-extended; a result code fits in bits 7:0. -/
def Obligations.ResultsAreZeroExtended : Prop :=
  ∀ (i : Instr) (s : State), Ready i s →
    ∃ r : Result, Completes i s r ∧ r.value.toNat < 2 ^ (dstType i).bits

/-- 60_exceptions.md R242: the possible values of flags_to_add, over every command, every operand and every legal
CTRL: invalid alone, divbyzero alone, or one of seven sets with or without denormal. -/
def Obligations.FlagsOfOneCommandAreOfSixteenSets : Prop :=
  ∀ (i : Instr) (s : State), Ready i s →
    ∃ r : Result, Completes i s r ∧
      (r.flags = raise [.invalid] ∨ r.flags = raise [.divbyzero] ∨
        ∃ d ∈ [0#16, raise [.denormal]],
        ∃ e ∈ [0#16, raise [.inexact], raise [.inexact, .plu], raise [.overflow, .inexact],
            raise [.overflow, .inexact, .plu], raise [.underflow, .inexact], raise [.underflow, .inexact, .plu]],
          r.flags = d ||| e)

/-- 10_state.md R20, R21; 60_exceptions.md R249: no event but a host write of FLAGS and reset clears a flag. -/
def Obligations.FlagsAreSticky : Prop :=
  ∀ (s t : State), step s = .next t → (∀ v, s.script.head? ≠ some (.wr 4 v)) →
    s.script.head? ≠ some (.wrRead 4) → s.script.head? ≠ some .reset → s.flags &&& t.flags = s.flags

/-- 10_state.md R13, R16, R20, R21: OPA, OPB and CTRL change only by a host write of that register or by reset, RES only
by a command or by reset, and FLAGS only by a host write of FLAGS, a command or reset. (The write of a value read is the
model's form of MOVR's second transaction, log entry 7.) -/
def Obligations.RegistersChangeOnlyByTheirOwnWriter : Prop :=
  ∀ (s t : State), step s = .next t →
    (t.opa ≠ s.opa → (∃ v, s.script.head? = some (.wr 0 v)) ∨ s.script.head? = some (.wrRead 0) ∨
      s.script.head? = some .reset) ∧
    (t.opb ≠ s.opb → (∃ v, s.script.head? = some (.wr 1 v)) ∨ s.script.head? = some (.wrRead 1) ∨
      s.script.head? = some .reset) ∧
    (t.ctrl ≠ s.ctrl → (∃ v, s.script.head? = some (.wr 3 v)) ∨ s.script.head? = some (.wrRead 3) ∨
      s.script.head? = some .reset) ∧
    (t.res ≠ s.res → (∃ v, s.script.head? = some (.wr 5 v)) ∨ s.script.head? = some (.wrRead 5) ∨
      s.script.head? = some .reset) ∧
    (t.flags ≠ s.flags → (∃ v, s.script.head? = some (.wr 4 v)) ∨ s.script.head? = some (.wrRead 4) ∨
      (∃ v, s.script.head? = some (.wr 5 v)) ∨ s.script.head? = some (.wrRead 5) ∨ s.script.head? = some .reset)

/-- 10_state.md R16, R19: the reserved bits of CTRL and FLAGS stay 0 over every step, whatever the transaction. -/
def Obligations.ReservedBitsStayZero : Prop :=
  ∀ (s t : State), ReservedBitsZero s → step s = .next t → ReservedBitsZero t

/-- 10_state.md R16, R19, R26: the reserved bits are 0 after reset. -/
def Obligations.ReservedBitsAreZeroAfterReset : Prop := ReservedBitsZero State.reset

/-- 10_state.md R18, 49_float_to_int.md R222: comparison commands, codec commands and the truncating conversions read
no field of CTRL (beyond its being legal). -/
def Obligations.ComparisonCodecAndTruncationReadNoControl : Prop :=
  ∀ (i : Instr) (s : State) (ctrl : Word16),
    (i.isCmp = true ∨ i ∈ [Instr.fclassS, .fclassD, .fclassX, .fsnanS, .fsnanD, .fsnanX,
      .fcvttWS, .fcvttLS, .fcvttWD, .fcvttLD, .fcvttWX, .fcvttLX]) →
    Ready i s → ctrl.extractLsb' 2 2 ≠ 1#2 →
    ∃ r : Result, Completes i s r ∧ Completes i { s with ctrl := ctrl } r

/-- 10_state.md R18, 41_rounder.md R104: CTRL.PC is read by five commands only. -/
def Obligations.PrecisionControlIsReadByFiveCommandsOnly : Prop :=
  ∀ (i : Instr) (s : State) (ctrl : Word16),
    i ∉ [Instr.faddX, .fsubX, .fmulX, .fdivX, .fsqrtX] →
    ctrl &&& 0xFFF3#16 = s.ctrl &&& 0xFFF3#16 → Ready i s → ctrl.extractLsb' 2 2 ≠ 1#2 →
    ∃ r : Result, Completes i s r ∧ Completes i { s with ctrl := ctrl } r

/-- 10_state.md R18, 40_codec.md R78: CTRL.NANMODE is read by the two-operand arithmetic commands only. -/
def Obligations.NanModeIsReadByTwoOperandArithmeticOnly : Prop :=
  ∀ (i : Instr) (s : State) (ctrl : Word16),
    i ∉ [Instr.faddS, .faddD, .faddX, .fsubS, .fsubD, .fsubX, .fmulS, .fmulD, .fmulX, .fdivS, .fdivD, .fdivX] →
    ctrl &&& 0xFFEF#16 = s.ctrl &&& 0xFFEF#16 → Ready i s →
    ∃ r : Result, Completes i s r ∧ Completes i { s with ctrl := ctrl } r

/-- 30_encoding.md R57, 70_reset_and_hazards.md R266: MOVR copies RES to an operand register in two transactions.
(The list of readings and the write of a value read are the model's, log entries 2 and 7.) -/
def Obligations.MovrCopiesTheResult : Prop :=
  ∀ (s : State) (rest : List HostEvent), s.resHeld = true →
    (s.script = movr 0 ++ rest →
      RunsTo 2 s { s with script := rest, opa := s.res, opaHeld := true, readings := ⟨2, s.res⟩ :: s.readings }) ∧
    (s.script = movr 1 ++ rest →
      RunsTo 2 s { s with script := rest, opb := s.res, opbHeld := true, readings := ⟨2, s.res⟩ :: s.readings })

/-- 70_reset_and_hazards.md R274: from reset, writing back a saved OPA, OPB, CTRL and FLAGS restores them all; RES is
not restored. -/
def Obligations.SavedRegistersAreRestored : Prop :=
  ∀ (opa opb : Word80) (ctrl flags : Word16), ctrl &&& 0xFFC0#16 = 0#16 → flags &&& 0xFDC0#16 = 0#16 →
    RunsTo 4 { State.reset with script := restoreScript opa opb ctrl flags }
      { State.reset with opa := opa, opaHeld := true, opb := opb, opbHeld := true, ctrl := ctrl, flags := flags }

/-! ### Byte images -/

/-- 20_memory.md R33: byte `i` is bits `8i+7 : 8i`, the image has 4, 8 or 10 bytes, and reading it back gives the value,
for every packed value of the format; reading a list of that many bytes gives the sum of byte `i` times `2^(8i)`. -/
def Obligations.ByteImageRoundTrips : Prop :=
  ∀ (f : Fmt) (v : Word80), v.toNat < 2 ^ fmtBits f →
    (toBytes f v).length = (match f with | .S => 4 | .D => 8 | .X => 10) ∧
    (∀ i, i < (toBytes f v).length → (toBytes f v)[i]? = some (v.extractLsb' (8 * i) 8)) ∧
    fromBytes f (toBytes f v) = v ∧
    ∀ bs : List (BitVec 8), bs.length = imageBytes f →
      (fromBytes f bs).toNat = ((List.range bs.length).map (fun i => (bs.getD i 0).toNat * 2 ^ (8 * i))).sum

/-- 20_memory.md R35: a 16-byte container holds the ten bytes of the value and six zeros, and whatever bytes 10 to 15
hold, reading gives the value. -/
def Obligations.ContainerPaddingIsIgnored : Prop :=
  ∀ (v : Word80) (pad : List (BitVec 8)),
    toContainer v = toBytes .X v ++ [0, 0, 0, 0, 0, 0] ∧ fromBytes .X (toBytes .X v ++ pad) = v

/-! ### Integer functions, codec -/

/-- 00_scope.md R6: isqrt(n) is the largest natural r with r*r <= n. -/
def Obligations.IsqrtIsTheLargestRoot : Prop :=
  ∀ n : Nat, isqrt n * isqrt n ≤ n ∧ ∀ r : Nat, r * r ≤ n → r ≤ isqrt n

/-- 40_codec.md R65, R66, R80 to R83: FCLASS writes the class code of the bits of OPA and adds no flag. -/
def Obligations.FclassWritesTheClassOfTheBits : Prop :=
  ∀ s : State,
    (Ready .fclassS s → Completes .fclassS s
      { value :=
          if s.opa.extractLsb' 23 8 = 0 then (if s.opa.extractLsb' 0 23 = 0 then 0 else 4)
          else if s.opa.extractLsb' 23 8 = 0xFF#8 then
            (if s.opa.extractLsb' 0 23 = 0 then (if s.opa.getLsbD 31 then 2 else 3) else 1)
          else 5,
        flags := 0 }) ∧
    (Ready .fclassD s → Completes .fclassD s
      { value :=
          if s.opa.extractLsb' 52 11 = 0 then (if s.opa.extractLsb' 0 52 = 0 then 0 else 4)
          else if s.opa.extractLsb' 52 11 = 0x7FF#11 then
            (if s.opa.extractLsb' 0 52 = 0 then (if s.opa.getLsbD 63 then 2 else 3) else 1)
          else 5,
        flags := 0 }) ∧
    (Ready .fclassX s → Completes .fclassX s
      { value :=
          if s.opa.extractLsb' 64 15 = 0 then (if s.opa.extractLsb' 0 64 = 0 then 0 else 4)
          else if s.opa.getLsbD 63 = false then 1
          else if s.opa.extractLsb' 64 15 = 0x7FFF#15 then
            (if s.opa.extractLsb' 0 63 = 0 then (if s.opa.getLsbD 79 then 2 else 3) else 1)
          else 5,
        flags := 0 })

/-- 40_codec.md R67, R69, R84 to R86: FSNAN writes 1 exactly on a NaN whose quiet bit (22, 51, 62) is clear, and for
extended80 also on every unsupported value; it adds no flag. -/
def Obligations.FsnanTellsSignalingNaNs : Prop :=
  ∀ s : State,
    (Ready .fsnanS s → Completes .fsnanS s
      { value := if s.opa.extractLsb' 23 8 = 0xFF#8 ∧ s.opa.extractLsb' 0 23 ≠ 0 ∧ s.opa.getLsbD 22 = false then 1 else 0,
        flags := 0 }) ∧
    (Ready .fsnanD s → Completes .fsnanD s
      { value := if s.opa.extractLsb' 52 11 = 0x7FF#11 ∧ s.opa.extractLsb' 0 52 ≠ 0 ∧ s.opa.getLsbD 51 = false then 1 else 0,
        flags := 0 }) ∧
    (Ready .fsnanX s → Completes .fsnanX s
      { value :=
          if (s.opa.extractLsb' 64 15 ≠ 0 ∧ s.opa.getLsbD 63 = false) ∨
            (s.opa.extractLsb' 64 15 = 0x7FFF#15 ∧ s.opa.extractLsb' 0 63 ≠ 0 ∧ s.opa.getLsbD 62 = false) then 1 else 0,
        flags := 0 })

/-- 40_codec.md R88: packing what Unpack gives returns the value, except that a pseudo-denormal is returned as the
normal number with E = 1 and the same sign and significand; and a zero is the zero of its sign. -/
def Obligations.PackUndoesUnpack : Prop :=
  ∀ (f : Fmt) (a : Word80), a.toNat < 2 ^ fmtBits f →
    ((isDenorm f a = true ∨ classify f a = .normalized) →
      packFinite f (unpack f a).sign (unpack f a).m (unpack f a).q =
        if f = .X ∧ expOf f a = 0 ∧ jBit a = true then mkPacked .X (signOf .X a) 1 (sigOf .X a) else a) ∧
    (isZero f a = true → packZero f (signOf f a) = a)

/-- 40_codec.md R74, R76: packing a member of the format gives a finite nonzero value of that sign and exactly that
magnitude, normal exactly from `2^emin` up, and never an unsupported value or a pseudo-denormal. -/
def Obligations.PackFiniteIsExact : Prop :=
  ∀ (f : Fmt) (s : Bool) (m : Nat) (q : Int), 1 ≤ m → IsMember f (precBits f) (m * 2 ^ q) →
    (packFinite f s m q).toNat < 2 ^ fmtBits f ∧
    signOf f (packFinite f s m q) = s ∧
    val f (packFinite f s m q) = signFactor s * (m * 2 ^ q) ∧
    classify f (packFinite f s m q) = (if (2 : ℚ) ^ emin f ≤ m * 2 ^ q then .normalized else .denormal) ∧
    (expOf f (packFinite f s m q) = 0 → jBit (packFinite f s m q) = false ∨ f ≠ .X)

/-- 40_codec.md R78: with neither operand unsupported and at least one a NaN, FADD, FSUB, FMUL and FDIV return the
quieted pick and raise `invalid` exactly for a signaling NaN operand; the pick is by CTRL.NANMODE, a tie going to the
first operand. -/
def Obligations.TwoOperandNaNsPropagate : Prop :=
  ∀ op ∈ [faddI, fsubI, fmulI, fdivI], ∀ (f : Fmt) (s : State) (c : Context),
    ReadyUnder (op f) s c → unsupported f (opA f s) = false → unsupported f (opB f s) = false →
    (isNaN f (opA f s) = true ∨ isNaN f (opB f s) = true) →
    ∃ pick : Word80,
      Completes (op f) s { value := pick ||| quietBit f,
                           flags := if isSNaN f (opA f s) || isSNaN f (opB f s) then 0x0001 else 0 } ∧
      (isNaN f (opB f s) = false → pick = opA f s) ∧
      (isNaN f (opA f s) = false → pick = opB f s) ∧
      (isNaN f (opA f s) = true → isNaN f (opB f s) = true →
        (c.nanMode = .firstOperand → pick = opA f s) ∧
        (c.nanMode = .largestSignificand →
          pick = if sigOf f (opA f s) < sigOf f (opB f s) then opB f s else opA f s))

/-- 40_codec.md R77: FSQRT and FRINT of a supported NaN return it quieted and raise `invalid` iff it is signaling. -/
def Obligations.OneOperandNaNsAreQuieted : Prop :=
  ∀ op ∈ [fsqrtI, frintI], ∀ (f : Fmt) (s : State), Ready (op f) s →
    unsupported f (opA f s) = false → isNaN f (opA f s) = true →
    Completes (op f) s { value := opA f s ||| quietBit f, flags := if isSNaN f (opA f s) then 0x0001 else 0 }

/-- 40_codec.md R67, R79; 60_exceptions.md R248: an unsupported extended80 operand raises `invalid` alone in every
command but the codec's, before every other check; a float result is DEFAULT_NAN, a comparison is unordered, an integer
is the sentinel. The two parameters are named, not their values (log entry 8). -/
def Obligations.UnsupportedOperandsAreInvalid : Prop :=
  ∀ s : State,
    ((unsupported .X (opA .X s) = true ∨ unsupported .X (opB .X s) = true) →
      (∀ op ∈ [faddI, fsubI, fmulI, fdivI], Ready (op .X) s →
        Completes (op .X) s { value := defaultNaN Config.fpe1 .X, flags := 0x0001 }) ∧
      (∀ sg : Bool, Ready (fcmpI sg .X) s →
        Completes (fcmpI sg .X) s { value := 3, flags := 0x0001 } ∧
        Completes (funI sg .X) s { value := 1, flags := 0x0001 } ∧
        ∀ op ∈ [feqI sg, fltI sg, fleI sg], Completes (op .X) s { value := 0, flags := 0x0001 })) ∧
    (unsupported .X (opA .X s) = true →
      (∀ op ∈ [fsqrtI, frintI], Ready (op .X) s →
        Completes (op .X) s { value := defaultNaN Config.fpe1 .X, flags := 0x0001 }) ∧
      (∀ (dst : Fmt) (i : Instr), fcvtFFI .X dst = some i → Ready i s →
        Completes i s { value := defaultNaN Config.fpe1 dst, flags := 0x0001 }) ∧
      (∀ (trunc : Bool) (t : IntTy), Ready (fcvtFII trunc .X t) s →
        Completes (fcvtFII trunc .X t) s { value := intIndefinite Config.fpe1 t, flags := 0x0001 }))

/-! ### The rounder -/

/-- 41_rounder.md R93, R94: RoundAt delivers the value the rounding mode gives for the described magnitude, tells
whether it differs from it, and whether it is greater. The premise on `sticky` follows from R91. -/
def Obligations.RoundAtRoundsTheDescribedValue : Prop :=
  ∀ (rm : Rounding) (s : Bool) (sig : Nat) (exp : Int) (sticky : Bool) (q : Int) (x : ℝ),
    Describes sig exp sticky x → (sticky = true → exp < q) →
    RoundsTo rm s x q (roundAt rm s sig exp sticky q).m ∧
    ((roundAt rm s sig exp sticky q).inexact = true ↔ ((roundAt rm s sig exp sticky q).m : ℝ) * 2 ^ q ≠ x) ∧
    ((roundAt rm s sig exp sticky q).up = true ↔ x < ((roundAt rm s sig exp sticky q).m : ℝ) * 2 ^ q)

/-- 41_rounder.md R92 to R106: RoundPack against real-number rounding. For a magnitude `x` with
`2^e <= x < 2^(e+1)`, let `m1` be its rounding at precision `p` with unbounded exponent, `e1` the exponent of that, and
`m` its rounding at the delivered quantum. Then the result is the overflow result of R96 when `e1 > emax`: the infinity,
or MaxFinite(p) packed by PackFinite; the flushed zero of R99 when `e1 < emin` and FTZ is set; and otherwise the zero of
that sign where `m = 0` (R101), PackFinite of `m * 2^q` where not (R103), a finite value of that sign and exactly that
magnitude, with `underflow`, `inexact` and `plu` exactly as R98, R100 and R102 say. It holds for every Status Context
and every parameter set; what UNDERFLOW_NEEDS_INEXACT false means in it (every tiny result raises `underflow`) is the
model's reading (log entry 9). -/
def Obligations.RoundPackIsCorrectRounding : Prop :=
  ∀ (P : Config.Params) (c : Context) (f : Fmt) (p : Nat) (s : Bool) (sig : Nat) (exp : Int) (sticky : Bool)
    (x : ℝ) (e : Int) (m1 m : Nat),
    (p = precBits f ∨ (f = .X ∧ (p = 24 ∨ p = 53))) →
    1 ≤ sig → Describes sig exp sticky x → (sticky = true → p + 2 ≤ bitlen sig) →
    (2 : ℝ) ^ e ≤ x → x < 2 ^ (e + 1) →
    RoundsTo c.rm s x (e - (p - 1)) m1 → RoundsTo c.rm s x (max e (emin f) - (p - 1)) m →
    let e1 := if m1 = 2 ^ p then e + 1 else e
    let r := roundPack P c f p s sig exp sticky
    (emax f < e1 →
      if c.rm = .nearestEven ∨ (c.rm = .towardPositive ∧ s = false) ∨ (c.rm = .towardNegative ∧ s = true) then
        r = { value := packInf f s, flags := if f = .X then 0x0228 else 0x0028 }
      else
        r = { value := packFinite f s (2 ^ p - 1) (emax f - (p - 1)), flags := 0x0028 } ∧ isFinite f r.value = true ∧ signOf f r.value = s ∧
        val f r.value = signFactor s * ((2 ^ p - 1) * 2 ^ (emax f - (p - 1)))) ∧
    (e1 < emin f → c.ftz = true → r = { value := packZero f s, flags := 0x0030 }) ∧
    (e1 ≤ emax f → ¬ (e1 < emin f ∧ c.ftz = true) →
      r.value = (if m = 0 then packZero f s else packFinite f s m (max e (emin f) - (p - 1))) ∧
      isFinite f r.value = true ∧ signOf f r.value = s ∧
      val f r.value = signFactor s * (m * 2 ^ (max e (emin f) - (p - 1))) ∧
      (HasFlag r.flags .underflow ↔
        e1 < emin f ∧ ((m : ℝ) * 2 ^ (max e (emin f) - (p - 1)) ≠ x ∨ P.underflowNeedsInexact = false)) ∧
      (HasFlag r.flags .inexact ↔ (m : ℝ) * 2 ^ (max e (emin f) - (p - 1)) ≠ x) ∧
      (HasFlag r.flags .plu ↔ f = .X ∧ x < (m : ℝ) * 2 ^ (max e (emin f) - (p - 1))) ∧
      r.flags &&& 0xFDCF#16 = 0)

/-- 41_rounder.md R108: any two descriptions of the same magnitude that meet R91 give the same packed value and the
same flags. -/
def Obligations.RoundPackDependsOnTheValueOnly : Prop :=
  ∀ (P : Config.Params) (c : Context) (f : Fmt) (p : Nat) (s : Bool) (sig sig' : Nat) (exp exp' : Int)
    (sticky sticky' : Bool) (x : ℝ),
    1 ≤ p → 1 ≤ sig → 1 ≤ sig' → Describes sig exp sticky x → Describes sig' exp' sticky' x →
    (sticky = true → p + 2 ≤ bitlen sig) → (sticky' = true → p + 2 ≤ bitlen sig') →
    roundPack P c f p s sig exp sticky = roundPack P c f p s sig' exp' sticky'

/-- 41_rounder.md R109 (a): a member of the format at precision `p` is returned itself with no flag, or, if it is
subnormal and FTZ is set, as a zero with `underflow` and `inexact` (with UNDERFLOW_NEEDS_INEXACT). -/
def Obligations.MembersAreReturnedUnchanged : Prop :=
  ∀ (P : Config.Params) (c : Context) (f : Fmt) (p : Nat) (s : Bool) (sig : Nat) (exp : Int),
    (p = precBits f ∨ (f = .X ∧ (p = 24 ∨ p = 53))) → P.underflowNeedsInexact = true → 1 ≤ sig →
    IsMember f p (sig * 2 ^ exp) →
    roundPack P c f p s sig exp false =
      if (sig : ℚ) * 2 ^ exp < 2 ^ emin f ∧ c.ftz = true then { value := packZero f s, flags := 0x0030 }
      else { value := packFinite f s sig exp, flags := 0 }

/-! ### Addition and subtraction -/

/-- 42_adder.md R112, R114: FADD and FSUB of finite operands with a nonzero exact sum round that sum once: the result
is RoundPack of any description of its magnitude. -/
def Obligations.AddAndSubtractRoundTheExactSum : Prop :=
  ∀ (neg : Bool) (f : Fmt) (s : State) (c : Context) (sig : Nat) (exp : Int),
    ReadyUnder (if neg then fsubI f else faddI f) s c →
    isFinite f (opA f s) = true → isFinite f (opB f s) = true →
    let x : ℚ := val f (opA f s) + signFactor neg * val f (opB f s)
    x ≠ 0 → (sig : ℚ) * 2 ^ exp = |x| →
    Completes (if neg then fsubI f else faddI f) s
      ((roundPack Config.fpe1 c f (arithPrec c f) (decide (x < 0)) sig exp false).also (denormal2 f (opA f s) (opB f s)))

/-- 42_adder.md R113: a zero sum: two zeros of one effective sign keep it; any other exact zero is +0, or −0 in mode
toward −∞; no flag but `denormal` for subnormal operands that cancel. -/
def Obligations.ZeroSumsTakeTheirSignByMode : Prop :=
  ∀ (neg : Bool) (f : Fmt) (s : State) (c : Context),
    ReadyUnder (if neg then fsubI f else faddI f) s c →
    isFinite f (opA f s) = true → isFinite f (opB f s) = true →
    val f (opA f s) + signFactor neg * val f (opB f s) = 0 →
    Completes (if neg then fsubI f else faddI f) s
      { value := packZero f
          (if isZero f (opA f s) = true ∧ isZero f (opB f s) = true ∧ signOf f (opA f s) = (signOf f (opB f s) ^^ neg)
            then signOf f (opA f s) else decide (c.rm = .towardNegative)),
        flags := if isDenorm f (opA f s) || isDenorm f (opB f s) then 0x0002 else 0 }

/-- 42_adder.md R111: sums with an infinity, no operand being a NaN: infinities of opposite effective sign are
invalid; otherwise the infinity is the result, with the second operand's effective sign where it is the second. -/
def Obligations.SumsWithAnInfinity : Prop :=
  ∀ (neg : Bool) (f : Fmt) (s : State), Ready (if neg then fsubI f else faddI f) s →
    isNaN f (opA f s) = false → isNaN f (opB f s) = false →
    let sb := signOf f (opB f s) ^^ neg
    let d : Word16 := if isDenorm f (opA f s) || isDenorm f (opB f s) then 0x0002 else 0
    (isInf f (opA f s) = true → isInf f (opB f s) = true → signOf f (opA f s) ≠ sb →
      Completes (if neg then fsubI f else faddI f) s { value := defaultNaN Config.fpe1 f, flags := 0x0001 }) ∧
    (isInf f (opA f s) = true → (isInf f (opB f s) = true → signOf f (opA f s) = sb) →
      Completes (if neg then fsubI f else faddI f) s { value := opA f s, flags := d }) ∧
    (isInf f (opA f s) = false → isInf f (opB f s) = true →
      Completes (if neg then fsubI f else faddI f) s { value := packInf f sb, flags := d })

/-- 42_adder.md R122: for non-NaN operands FADD gives the same result and the same flags in both orders, in every
rounding mode. -/
def Obligations.AdditionCommutes : Prop :=
  ∀ (f : Fmt) (s : State), Ready (faddI f) s → isNaN f (opA f s) = false → isNaN f (opB f s) = false →
    ∃ r : Result, Completes (faddI f) s r ∧ Completes (faddI f) { s with opa := s.opb, opb := s.opa } r

/-- 42_adder.md R123: FSUB(x, x) is +0, or −0 in mode toward −∞, with no flag other than `denormal` for a subnormal
finite x, and is invalid for an infinite x. -/
def Obligations.SubtractingAValueFromItself : Prop :=
  ∀ (f : Fmt) (s : State) (c : Context), ReadyUnder (fsubI f) s c → opA f s = opB f s →
    (isFinite f (opA f s) = true → Completes (fsubI f) s
      { value := packZero f (decide (c.rm = .towardNegative)), flags := if isDenorm f (opA f s) then 0x0002 else 0 }) ∧
    (isInf f (opA f s) = true → Completes (fsubI f) s { value := defaultNaN Config.fpe1 f, flags := 0x0001 })

/-! ### Multiplication -/

/-- 43_multiplier.md R126: FMUL of finite nonzero operands rounds the exact product once: the result is RoundPack of
any description of its magnitude. -/
def Obligations.MultiplyRoundsTheExactProduct : Prop :=
  ∀ (f : Fmt) (s : State) (c : Context) (sig : Nat) (exp : Int), ReadyUnder (fmulI f) s c →
    isFinite f (opA f s) = true → isFinite f (opB f s) = true →
    isZero f (opA f s) = false → isZero f (opB f s) = false →
    (sig : ℚ) * 2 ^ exp = |val f (opA f s) * val f (opB f s)| →
    Completes (fmulI f) s
      ((roundPack Config.fpe1 c f (arithPrec c f) (signOf f (opA f s) ^^ signOf f (opB f s)) sig exp false).also
        (denormal2 f (opA f s) (opB f s)))

/-- 43_multiplier.md R125: products with a zero or an infinity, no operand being a NaN: `0 × ∞` is invalid, otherwise
infinity or zero of the exclusive-or sign. -/
def Obligations.ProductsWithZeroOrInfinity : Prop :=
  ∀ (f : Fmt) (s : State), Ready (fmulI f) s → isNaN f (opA f s) = false → isNaN f (opB f s) = false →
    let sz := signOf f (opA f s) ^^ signOf f (opB f s)
    let d : Word16 := if isDenorm f (opA f s) || isDenorm f (opB f s) then 0x0002 else 0
    ((isZero f (opA f s) = true ∧ isInf f (opB f s) = true ∨ isInf f (opA f s) = true ∧ isZero f (opB f s) = true) →
      Completes (fmulI f) s { value := defaultNaN Config.fpe1 f, flags := 0x0001 }) ∧
    ((isInf f (opA f s) = true ∧ isZero f (opB f s) = false ∨ isZero f (opA f s) = false ∧ isInf f (opB f s) = true) →
      Completes (fmulI f) s { value := packInf f sz, flags := d }) ∧
    ((isZero f (opA f s) = true ∧ isInf f (opB f s) = false ∨ isInf f (opA f s) = false ∧ isZero f (opB f s) = true) →
      Completes (fmulI f) s { value := packZero f sz, flags := d })

/-- 43_multiplier.md R131: for non-NaN operands FMUL gives the same result and the same flags in both orders, in every
rounding mode. -/
def Obligations.MultiplicationCommutes : Prop :=
  ∀ (f : Fmt) (s : State), Ready (fmulI f) s → isNaN f (opA f s) = false → isNaN f (opB f s) = false →
    ∃ r : Result, Completes (fmulI f) s r ∧ Completes (fmulI f) { s with opa := s.opb, opb := s.opa } r

/-! ### Division -/

/-- 44_divider.md R136: FDIV of finite nonzero operands rounds the exact quotient once: the result is RoundPack of any
description of its magnitude, truncated with a sticky bit or not, that meets R91. -/
def Obligations.DivideRoundsTheExactQuotient : Prop :=
  ∀ (f : Fmt) (s : State) (c : Context) (sig : Nat) (exp : Int) (sticky : Bool), ReadyUnder (fdivI f) s c →
    isFinite f (opA f s) = true → isFinite f (opB f s) = true →
    isZero f (opA f s) = false → isZero f (opB f s) = false → 1 ≤ sig →
    Describes sig exp sticky ((|val f (opA f s) / val f (opB f s)| : ℚ) : ℝ) →
    (sticky = true → arithPrec c f + 2 ≤ bitlen sig) →
    Completes (fdivI f) s
      ((roundPack Config.fpe1 c f (arithPrec c f) (signOf f (opA f s) ^^ signOf f (opB f s)) sig exp sticky).also
        (denormal2 f (opA f s) (opB f s)))

/-- 44_divider.md R135: quotients with a zero or an infinity, no operand being a NaN: `0/0` and `∞/∞` are invalid; a
finite nonzero dividend over zero is `divbyzero` alone, infinity of the exclusive-or sign; `∞/x` is infinity with no
such flag, `x/∞` and `0/x` are zeros. -/
def Obligations.QuotientsWithZeroOrInfinity : Prop :=
  ∀ (f : Fmt) (s : State), Ready (fdivI f) s → isNaN f (opA f s) = false → isNaN f (opB f s) = false →
    let sz := signOf f (opA f s) ^^ signOf f (opB f s)
    let d : Word16 := if isDenorm f (opA f s) || isDenorm f (opB f s) then 0x0002 else 0
    ((isZero f (opA f s) = true ∧ isZero f (opB f s) = true ∨ isInf f (opA f s) = true ∧ isInf f (opB f s) = true) →
      Completes (fdivI f) s { value := defaultNaN Config.fpe1 f, flags := 0x0001 }) ∧
    (isFinite f (opA f s) = true → isZero f (opA f s) = false → isZero f (opB f s) = true →
      Completes (fdivI f) s { value := packInf f sz, flags := 0x0004 }) ∧
    (isInf f (opA f s) = true → isInf f (opB f s) = false →
      Completes (fdivI f) s { value := packInf f sz, flags := d }) ∧
    ((isInf f (opA f s) = false ∧ isInf f (opB f s) = true ∨
        isZero f (opA f s) = true ∧ isZero f (opB f s) = false) →
      Completes (fdivI f) s { value := packZero f sz, flags := d })

/-- 44_divider.md R141: x / x is 1.0 of the format, in every rounding mode and precision, with no flag for a normalized
x and `denormal` alone for a subnormal one. -/
def Obligations.AValueDividedByItselfIsOne : Prop :=
  ∀ (f : Fmt) (s : State), Ready (fdivI f) s → opA f s = opB f s →
    let one : Word80 := match f with | .S => 0x3F800000 | .D => 0x3FF0000000000000 | .X => 0x3FFF8000000000000000
    (classify f (opA f s) = .normalized → Completes (fdivI f) s { value := one, flags := 0 }) ∧
    (isDenorm f (opA f s) = true → Completes (fdivI f) s { value := one, flags := 0x0002 })

/-! ### Square root, round to integer -/

/-- 45_sqrt.md R146: FSQRT of a finite positive operand rounds the exact real root once: the result is RoundPack of any
description of it that meets R91. -/
def Obligations.SquareRootRoundsTheExactRoot : Prop :=
  ∀ (f : Fmt) (s : State) (c : Context) (sig : Nat) (exp : Int) (sticky : Bool), ReadyUnder (fsqrtI f) s c →
    isFinite f (opA f s) = true → isZero f (opA f s) = false → signOf f (opA f s) = false → 1 ≤ sig →
    Describes sig exp sticky (Real.sqrt ((val f (opA f s) : ℚ) : ℝ)) →
    (sticky = true → arithPrec c f + 2 ≤ bitlen sig) →
    Completes (fsqrtI f) s
      ((roundPack Config.fpe1 c f (arithPrec c f) false sig exp sticky).also (denormal1 f (opA f s)))

/-- 45_sqrt.md R145: the special rows of FSQRT, the operand being no NaN: a zero and +∞ return themselves, a negative
nonzero operand, −∞ included, is invalid. -/
def Obligations.SquareRootSpecialCases : Prop :=
  ∀ (f : Fmt) (s : State), Ready (fsqrtI f) s → isNaN f (opA f s) = false →
    (isZero f (opA f s) = true → Completes (fsqrtI f) s { value := opA f s, flags := 0 }) ∧
    (classify f (opA f s) = .posInfinity → Completes (fsqrtI f) s { value := opA f s, flags := 0 }) ∧
    (signOf f (opA f s) = true → isZero f (opA f s) = false →
      Completes (fsqrtI f) s { value := defaultNaN Config.fpe1 f, flags := 0x0001 })

/-- 45_sqrt.md R147: a square root never overflows, never underflows and never divides by zero, in any mode and with or
without flush to zero. -/
def Obligations.SquareRootStaysInRange : Prop :=
  ∀ (f : Fmt) (s : State), Ready (fsqrtI f) s →
    ∃ r : Result, Completes (fsqrtI f) s r ∧
      ¬ HasFlag r.flags .overflow ∧ ¬ HasFlag r.flags .underflow ∧ ¬ HasFlag r.flags .divbyzero

/-- 46_round_to_int.md R155, R156: FRINT of a finite operand delivers the integer the rounding mode gives for its
magnitude, with the operand's sign; `inexact` exactly when it differs, `denormal` for a subnormal operand, `plu` for
extended80 when the magnitude grew; an integer, a zero and an infinity are returned unchanged. -/
def Obligations.RoundToIntegerDeliversTheInteger : Prop :=
  ∀ (f : Fmt) (s : State) (c : Context), ReadyUnder (frintI f) s c →
    (isInf f (opA f s) = true → Completes (frintI f) s { value := opA f s, flags := 0 }) ∧
    (∀ n : Nat, isFinite f (opA f s) = true → RoundsTo c.rm (signOf f (opA f s)) ((|val f (opA f s)| : ℚ) : ℝ) 0 n →
      ∃ v : Word80,
        Completes (frintI f) s
          { value := v,
            flags := (if isDenorm f (opA f s) then 0x0002 else 0) |||
              (if (n : ℚ) = |val f (opA f s)| then 0 else 0x0020) |||
              (if f = .X ∧ |val f (opA f s)| < n then 0x0200 else 0) } ∧
        isFinite f v = true ∧ signOf f v = signOf f (opA f s) ∧
        val f v = signFactor (signOf f (opA f s)) * n ∧
        ((n : ℚ) = |val f (opA f s)| → v = opA f s))

/-! ### Comparison -/

/-- 47_compare.md R165 to R168: one relation and one set of flags decide FEQ, FLT, FLE, FUN and FCMP of a format and
variant. It is unordered, with `invalid`, for an unsupported operand; unordered, with `invalid` for a signaling NaN or
in the signaling variant, for a NaN; otherwise the order of the extended real values, with `denormal` for a subnormal
operand. -/
def Obligations.ComparisonsFollowTheRelation : Prop :=
  ∀ (sg : Bool) (f : Fmt) (s : State), Ready (fcmpI sg f) s →
    ∃ (rel : Relation) (fl : Word16),
      Completes (fcmpI sg f) s
        { value := match rel with | .less => 0 | .equal => 1 | .greater => 2 | .unordered => 3, flags := fl } ∧
      Completes (feqI sg f) s { value := if rel = .equal then 1 else 0, flags := fl } ∧
      Completes (fltI sg f) s { value := if rel = .less then 1 else 0, flags := fl } ∧
      Completes (fleI sg f) s { value := if rel = .less ∨ rel = .equal then 1 else 0, flags := fl } ∧
      Completes (funI sg f) s { value := if rel = .unordered then 1 else 0, flags := fl } ∧
      (if unsupported f (opA f s) || unsupported f (opB f s) then rel = .unordered ∧ fl = 0x0001
       else if isNaN f (opA f s) || isNaN f (opB f s) then
         rel = .unordered ∧ fl = if sg || isSNaN f (opA f s) || isSNaN f (opB f s) then 0x0001 else 0
       else
         rel = ExtVal.relation (extVal f (opA f s)) (extVal f (opB f s)) ∧
         fl = if isDenorm f (opA f s) || isDenorm f (opB f s) then 0x0002 else 0)

/-- 47_compare.md R200: FEQ = 1 iff FCMP = 1; FUN = 1 iff FCLASS of an operand is 1; FLE = FLT or FEQ; and exactly one
of FLT(a,b), FEQ(a,b), FLT(b,a), FUN(a,b) is 1; in both variants. -/
def Obligations.ComparisonsAreConsistent : Prop :=
  ∀ (sg : Bool) (f : Fmt) (s : State), Ready (fcmpI sg f) s →
    let t : State := { s with opa := s.opb, opb := s.opa }
    (resultOf (feqI sg f) s = some 1 ↔ resultOf (fcmpI sg f) s = some 1) ∧
    (resultOf (funI sg f) s = some 1 ↔ resultOf (fclassI f) s = some 1 ∨ resultOf (fclassI f) t = some 1) ∧
    (resultOf (fleI sg f) s = some 1 ↔ resultOf (fltI sg f) s = some 1 ∨ resultOf (feqI sg f) s = some 1) ∧
    ∃ lt eq gt un : Word80,
      resultOf (fltI sg f) s = some lt ∧ resultOf (feqI sg f) s = some eq ∧ resultOf (fltI sg f) t = some gt ∧
      resultOf (funI sg f) s = some un ∧ lt.toNat + eq.toNat + gt.toNat + un.toNat = 1

/-! ### Conversions -/

/-- 48_converter.md R207: FCVT between float formats rounds the exact value once at the destination's full precision:
the result is RoundPack of any description of its magnitude, with `denormal` for a subnormal binary32 or binary64
operand and not for an extended80 one; infinities and zeros keep their sign and raise nothing. -/
def Obligations.FloatConversionsRoundTheExactValue : Prop :=
  ∀ (src dst : Fmt) (i : Instr) (s : State) (c : Context), fcvtFFI src dst = some i → ReadyUnder i s c →
    (isInf src (opA src s) = true →
      Completes i s { value := packInf dst (signOf src (opA src s)), flags := 0 }) ∧
    (isZero src (opA src s) = true →
      Completes i s { value := packZero dst (signOf src (opA src s)), flags := 0 }) ∧
    (∀ (sig : Nat) (exp : Int), isFinite src (opA src s) = true → isZero src (opA src s) = false →
      (sig : ℚ) * 2 ^ exp = |val src (opA src s)| →
      Completes i s
        ((roundPack Config.fpe1 c dst (precBits dst) (signOf src (opA src s)) sig exp false).also
          (if src ≠ .X ∧ isDenorm src (opA src s) = true then 0x0002 else 0)))

/-- 48_converter.md R205, R207: a widening conversion of a finite operand is exact, in every mode and with or without
flush to zero, and raises nothing but `denormal` for a subnormal operand. -/
def Obligations.WideningConversionsAreExact : Prop :=
  ∀ (src dst : Fmt) (i : Instr) (s : State), fmtBits src < fmtBits dst → fcvtFFI src dst = some i → Ready i s →
    isFinite src (opA src s) = true →
    ∃ v : Word80,
      Completes i s { value := v, flags := if isDenorm src (opA src s) then 0x0002 else 0 } ∧
      isFinite dst v = true ∧ signOf dst v = signOf src (opA src s) ∧ val dst v = val src (opA src s)

/-- 48_converter.md R206: a supported NaN is converted to a quiet NaN of the destination with its sign and its
top-aligned payload, raising `invalid` iff it is signaling. -/
def Obligations.ConvertedNaNsKeepSignAndPayload : Prop :=
  ∀ (src dst : Fmt) (i : Instr) (s : State), fcvtFFI src dst = some i → Ready i s →
    unsupported src (opA src s) = false → isNaN src (opA src s) = true →
    ∃ v : Word80,
      Completes i s { value := v, flags := if isSNaN src (opA src s) then 0x0001 else 0 } ∧
      isQNaN dst v = true ∧ signOf dst v = signOf src (opA src s) ∧
      fracOf dst v =
        ((fracOf src (opA src s) * 2 ^ fracBits dst / 2 ^ fracBits src) ||| 2 ^ (fracBits dst - 1))

/-- 48_converter.md R236: up to a wider format and back is bit-identical: `denormal` on the way up of a subnormal and
nothing on the way back; a signaling NaN comes back quieted, with `invalid` on the way up; with FTZ = 1 the way back of
a subnormal is flushed to zero with `underflow` and `inexact`. -/
def Obligations.WideningAndBackIsTheIdentity : Prop :=
  ∀ (src dst : Fmt) (i j : Instr) (s : State) (c : Context), fmtBits src < fmtBits dst →
    fcvtFFI src dst = some i → fcvtFFI dst src = some j → ReadyUnder i s c →
    ∃ v : Word80,
      Completes i s
        { value := v,
          flags := if isSNaN src (opA src s) then 0x0001 else if isDenorm src (opA src s) then 0x0002 else 0 } ∧
      Completes j { s with opa := v }
        (if isDenorm src (opA src s) = true ∧ c.ftz = true then
          { value := packZero src (signOf src (opA src s)), flags := 0x0030 }
        else { value := if isSNaN src (opA src s) then opA src s ||| quietBit src else opA src s, flags := 0 })

/-- 48_converter.md R214, R215: integer to float rounds the integer once: the result is RoundPack of any description of
its magnitude, and +0 for 0; `W` to binary64 and to extended80 and `L` to extended80 are exact and raise nothing. -/
def Obligations.IntegersConvertByOneRounding : Prop :=
  ∀ (t : IntTy) (dst : Fmt) (s : State) (c : Context), ReadyUnder (fcvtIFI t dst) s c →
    let n : Int := (s.opa.setWidth (intBits t)).toInt
    (n = 0 → Completes (fcvtIFI t dst) s { value := 0, flags := 0 }) ∧
    (∀ (sig : Nat) (exp : Int), n ≠ 0 → (sig : ℚ) * 2 ^ exp = |(n : ℚ)| →
      Completes (fcvtIFI t dst) s (roundPack Config.fpe1 c dst (precBits dst) (decide (n < 0)) sig exp false)) ∧
    (intBits t ≤ precBits dst → ∃ v : Word80,
      Completes (fcvtIFI t dst) s { value := v, flags := 0 } ∧ isFinite dst v = true ∧ val dst v = n)

/-- 49_float_to_int.md R222: a finite operand converts to the integer that the requested rounding gives, in two's
complement, with `inexact` exactly when it differs; a rounded value out of range, a NaN of either kind, an infinity and
an unsupported value give `invalid` alone and the sentinel, whose value is a parameter (log entry 8). FCVTT truncates
whatever CTRL.RM is; `denormal` is never raised. -/
def Obligations.FloatToIntegerRoundsOrIsInvalid : Prop :=
  ∀ (trunc : Bool) (src : Fmt) (t : IntTy) (s : State) (c : Context), ReadyUnder (fcvtFII trunc src t) s c →
    (isFinite src (opA src s) = false →
      Completes (fcvtFII trunc src t) s { value := intIndefinite Config.fpe1 t, flags := 0x0001 }) ∧
    (∀ n : Nat, isFinite src (opA src s) = true →
      RoundsTo (if trunc then .towardZero else c.rm) (signOf src (opA src s))
        ((|val src (opA src s)| : ℚ) : ℝ) 0 n →
      let v : Int := if signOf src (opA src s) then -(n : Int) else n
      Completes (fcvtFII trunc src t) s
        (if v < -2 ^ (intBits t - 1) ∨ 2 ^ (intBits t - 1) - 1 < v then
          { value := intIndefinite Config.fpe1 t, flags := 0x0001 }
        else
          { value := (BitVec.ofInt (intBits t) v).setWidth 80,
            flags := if (n : ℚ) = |val src (opA src s)| then 0 else 0x0020 }))
end

