-- ==== Sys2Proof/Laws/Arith.lean ====
section
/-! SUPPORT. The integer functions: bit length between two powers of two, exact scaling. -/

namespace Sys2Proof.Machine

@[simp] theorem bitlen_zero : bitlen 0 = 0 := rfl

/-- A positive number has at least one bit. -/
theorem bitlen_pos {n : Nat} (h : 1 ≤ n) : 1 ≤ bitlen n := by
  unfold bitlen
  split <;> omega

/-- A number is below the power of two of its bit length. -/
theorem lt_two_pow_bitlen (n : Nat) : n < 2 ^ bitlen n := by
  unfold bitlen
  split
  · omega
  · exact Nat.lt_log2_self

/-- A positive number is at least the power of two one below its bit length. -/
theorem two_pow_le_of_bitlen {n : Nat} (h : 1 ≤ n) : 2 ^ (bitlen n - 1) ≤ n := by
  unfold bitlen
  rw [if_neg (by omega), Nat.add_sub_cancel]
  exact Nat.log2_self_le (by omega)

/-- The bit length is the only number with this property. -/
theorem bitlen_eq_iff {n k : Nat} (h : 1 ≤ n) : bitlen n = k + 1 ↔ 2 ^ k ≤ n ∧ n < 2 ^ (k + 1) := by
  unfold bitlen
  rw [if_neg (by omega), Nat.add_right_cancel_iff]
  exact Nat.log2_eq_iff (by omega)

/-- Doubling adds one bit. -/
theorem bitlen_mul_two_pow {n : Nat} (h : 1 ≤ n) (k : Nat) : bitlen (n * 2 ^ k) = bitlen n + k := by
  have hp := bitlen_pos h
  have h1 := two_pow_le_of_bitlen h
  have h2 := lt_two_pow_bitlen n
  have hk : 1 ≤ n * 2 ^ k := Nat.mul_pos h (Nat.two_pow_pos k)
  obtain ⟨b, hb⟩ : ∃ b, bitlen n = b + 1 := ⟨bitlen n - 1, by omega⟩
  rw [hb] at h1 h2
  rw [hb, show b + 1 + k = (b + k) + 1 by omega, bitlen_eq_iff hk]
  constructor
  · rw [Nat.pow_add]
    exact Nat.mul_le_mul_right _ h1
  · rw [show b + k + 1 = (b + 1) + k by omega, Nat.pow_add]
    exact Nat.mul_lt_mul_of_pos_right h2 (Nat.two_pow_pos k)

/-- Scaling by a non-negative exponent multiplies. -/
theorem scaleNat_of_nonneg {m : Nat} {k : Int} (h : 0 ≤ k) : scaleNat m k = m * 2 ^ k.toNat := by
  simp [scaleNat, h]

/-- Scaling by a negative exponent divides, exactly where the value is a multiple. -/
theorem scaleNat_of_neg {m : Nat} {k : Int} (h : k < 0) : scaleNat m k = m / 2 ^ (-k).toNat := by
  simp [scaleNat, Int.not_le.2 h]

@[simp] theorem signedInt_false (m : Nat) : signedInt false m = m := rfl
@[simp] theorem signedInt_true (m : Nat) : signedInt true m = -(m : Int) := rfl

end Sys2Proof.Machine
end

