-- ==== Sys2Proof/Laws/Codec.lean ====
section
/-! SUPPORT. The fields of an assembled packed value, and the width of an operand. -/

namespace Sys2Proof.Machine

/-- A packed value lies in the low bits of its format. -/
theorem mkPacked_toNat (f : Fmt) (s : Bool) (e m : Nat) :
    (mkPacked f s e m).toNat =
      s.toNat * 2 ^ (fmtBits f - 1) + (e % 2 ^ expBits f) * 2 ^ sigBits f + m % 2 ^ sigBits f := by
  have hs : s.toNat ≤ 1 := by cases s <;> decide
  rw [mkPacked, BitVec.toNat_ofNat]
  apply Nat.mod_eq_of_lt
  cases f <;> simp only [fmtBits, expBits, sigBits] <;> omega

/-- The exponent field of an assembled value. -/
theorem expOf_mkPacked (f : Fmt) (s : Bool) (e m : Nat) : expOf f (mkPacked f s e m) = e % 2 ^ expBits f := by
  have hs : s.toNat ≤ 1 := by cases s <;> decide
  rw [expOf, BitVec.extractLsb'_toNat, mkPacked_toNat, Nat.shiftRight_eq_div_pow]
  cases f <;> simp only [fmtBits, expBits, sigBits] <;> omega

/-- The significand field of an assembled value. -/
theorem sigOf_mkPacked (f : Fmt) (s : Bool) (e m : Nat) : sigOf f (mkPacked f s e m) = m % 2 ^ sigBits f := by
  have hs : s.toNat ≤ 1 := by cases s <;> decide
  rw [sigOf, BitVec.extractLsb'_toNat, mkPacked_toNat, Nat.shiftRight_eq_div_pow]
  cases f <;> simp only [fmtBits, expBits, sigBits] <;> omega

/-- The fraction of an assembled value. -/
theorem fracOf_mkPacked (f : Fmt) (s : Bool) (e m : Nat) : fracOf f (mkPacked f s e m) = m % 2 ^ fracBits f := by
  have hs : s.toNat ≤ 1 := by cases s <;> decide
  rw [fracOf, BitVec.extractLsb'_toNat, mkPacked_toNat, Nat.shiftRight_eq_div_pow]
  cases f <;> simp only [fmtBits, expBits, sigBits, fracBits, precBits] <;> omega

/-- The sign of an assembled value. -/
theorem signOf_mkPacked (f : Fmt) (s : Bool) (e m : Nat) : signOf f (mkPacked f s e m) = s := by
  have hs : s = decide (s.toNat = 1) := by cases s <;> rfl
  have hn : s.toNat ≤ 1 := by cases s <;> decide
  rw [signOf, BitVec.getLsbD, mkPacked_toNat, Nat.testBit_eq_decide_div_mod_eq, hs, decide_eq_decide, ← hs]
  cases f <;> simp only [fmtBits, expBits, sigBits] <;> omega

/-- An operand has no bits above its format. -/
theorem fltOperand_lt (f : Fmt) (r : Word80) : (fltOperand f r).toNat < 2 ^ fmtBits f := by
  rw [fltOperand, BitVec.toNat_setWidth, BitVec.toNat_setWidth]
  exact lt_of_le_of_lt (Nat.mod_le _ _) (Nat.mod_lt _ (Nat.two_pow_pos _))

/-- A packed value is assembled from its own fields. -/
theorem mkPacked_of_fields (f : Fmt) (a : Word80) (h : a.toNat < 2 ^ fmtBits f) :
    mkPacked f (signOf f a) (expOf f a) (sigOf f a) = a := by
  apply BitVec.eq_of_toNat_eq
  rw [mkPacked_toNat, expOf, sigOf, signOf, BitVec.extractLsb'_toNat, BitVec.extractLsb'_toNat, BitVec.getLsbD,
    Nat.testBit_eq_decide_div_mod_eq, Nat.shiftRight_eq_div_pow, Nat.shiftRight_eq_div_pow]
  have hb : ∀ n : Nat, (decide (n % 2 = 1)).toNat = n % 2 := fun n => by
    rcases Nat.mod_two_eq_zero_or_one n with h | h <;> simp [h]
  rw [hb]
  generalize a.toNat = n at h
  cases f <;> simp only [fmtBits, expBits, sigBits] at h ⊢ <;> omega

/-- The six classes are exclusive and exhaust the values: a value is finite, infinite or a NaN. -/
theorem isFinite_or_isInf_or_isNaN (f : Fmt) (a : Word80) :
    (isFinite f a = true ∧ isInf f a = false ∧ isNaN f a = false) ∨
    (isFinite f a = false ∧ isInf f a = true ∧ isNaN f a = false) ∨
    (isFinite f a = false ∧ isInf f a = false ∧ isNaN f a = true) := by
  unfold isFinite isInf isNaN
  cases classify f a <;> decide

end Sys2Proof.Machine
end

