-- ==== Sys2Proof/Laws/State.lean ====
section
/-! SUPPORT. What each update of the state does to each field, true by unfolding. -/

namespace Sys2Proof.Machine

/-! ### `complete` -/

@[simp] theorem complete_opa (s : State) (r : Result) : (complete s r).opa = s.opa := rfl
@[simp] theorem complete_opaHeld (s : State) (r : Result) : (complete s r).opaHeld = s.opaHeld := rfl
@[simp] theorem complete_opb (s : State) (r : Result) : (complete s r).opb = s.opb := rfl
@[simp] theorem complete_opbHeld (s : State) (r : Result) : (complete s r).opbHeld = s.opbHeld := rfl
@[simp] theorem complete_res (s : State) (r : Result) : (complete s r).res = r.value := rfl
@[simp] theorem complete_resHeld (s : State) (r : Result) : (complete s r).resHeld = true := rfl
@[simp] theorem complete_ctrl (s : State) (r : Result) : (complete s r).ctrl = s.ctrl := rfl
@[simp] theorem complete_flags (s : State) (r : Result) : (complete s r).flags = s.flags ||| r.flags := rfl
@[simp] theorem complete_script (s : State) (r : Result) : (complete s r).script = s.script := rfl
@[simp] theorem complete_readings (s : State) (r : Result) : (complete s r).readings = s.readings := rfl

/-! ### `writeOpa` -/

@[simp] theorem writeOpa_opa (v : Word80) (s : State) : (writeOpa v s).opa = v := rfl
@[simp] theorem writeOpa_opaHeld (v : Word80) (s : State) : (writeOpa v s).opaHeld = true := rfl
@[simp] theorem writeOpa_opb (v : Word80) (s : State) : (writeOpa v s).opb = s.opb := rfl
@[simp] theorem writeOpa_opbHeld (v : Word80) (s : State) : (writeOpa v s).opbHeld = s.opbHeld := rfl
@[simp] theorem writeOpa_res (v : Word80) (s : State) : (writeOpa v s).res = s.res := rfl
@[simp] theorem writeOpa_resHeld (v : Word80) (s : State) : (writeOpa v s).resHeld = s.resHeld := rfl
@[simp] theorem writeOpa_ctrl (v : Word80) (s : State) : (writeOpa v s).ctrl = s.ctrl := rfl
@[simp] theorem writeOpa_flags (v : Word80) (s : State) : (writeOpa v s).flags = s.flags := rfl
@[simp] theorem writeOpa_script (v : Word80) (s : State) : (writeOpa v s).script = s.script := rfl
@[simp] theorem writeOpa_readings (v : Word80) (s : State) : (writeOpa v s).readings = s.readings := rfl

/-! ### `writeOpb` -/

@[simp] theorem writeOpb_opa (v : Word80) (s : State) : (writeOpb v s).opa = s.opa := rfl
@[simp] theorem writeOpb_opaHeld (v : Word80) (s : State) : (writeOpb v s).opaHeld = s.opaHeld := rfl
@[simp] theorem writeOpb_opb (v : Word80) (s : State) : (writeOpb v s).opb = v := rfl
@[simp] theorem writeOpb_opbHeld (v : Word80) (s : State) : (writeOpb v s).opbHeld = true := rfl
@[simp] theorem writeOpb_res (v : Word80) (s : State) : (writeOpb v s).res = s.res := rfl
@[simp] theorem writeOpb_resHeld (v : Word80) (s : State) : (writeOpb v s).resHeld = s.resHeld := rfl
@[simp] theorem writeOpb_ctrl (v : Word80) (s : State) : (writeOpb v s).ctrl = s.ctrl := rfl
@[simp] theorem writeOpb_flags (v : Word80) (s : State) : (writeOpb v s).flags = s.flags := rfl
@[simp] theorem writeOpb_script (v : Word80) (s : State) : (writeOpb v s).script = s.script := rfl
@[simp] theorem writeOpb_readings (v : Word80) (s : State) : (writeOpb v s).readings = s.readings := rfl

/-! ### `writeCtrl` -/

@[simp] theorem writeCtrl_opa (v : Word80) (s : State) : (writeCtrl v s).opa = s.opa := rfl
@[simp] theorem writeCtrl_opaHeld (v : Word80) (s : State) : (writeCtrl v s).opaHeld = s.opaHeld := rfl
@[simp] theorem writeCtrl_opb (v : Word80) (s : State) : (writeCtrl v s).opb = s.opb := rfl
@[simp] theorem writeCtrl_opbHeld (v : Word80) (s : State) : (writeCtrl v s).opbHeld = s.opbHeld := rfl
@[simp] theorem writeCtrl_res (v : Word80) (s : State) : (writeCtrl v s).res = s.res := rfl
@[simp] theorem writeCtrl_resHeld (v : Word80) (s : State) : (writeCtrl v s).resHeld = s.resHeld := rfl
@[simp] theorem writeCtrl_ctrl (v : Word80) (s : State) : (writeCtrl v s).ctrl = v.setWidth 16 &&& ctrlMask := rfl
@[simp] theorem writeCtrl_flags (v : Word80) (s : State) : (writeCtrl v s).flags = s.flags := rfl
@[simp] theorem writeCtrl_script (v : Word80) (s : State) : (writeCtrl v s).script = s.script := rfl
@[simp] theorem writeCtrl_readings (v : Word80) (s : State) : (writeCtrl v s).readings = s.readings := rfl

/-! ### `writeFlags` -/

@[simp] theorem writeFlags_opa (v : Word80) (s : State) : (writeFlags v s).opa = s.opa := rfl
@[simp] theorem writeFlags_opaHeld (v : Word80) (s : State) : (writeFlags v s).opaHeld = s.opaHeld := rfl
@[simp] theorem writeFlags_opb (v : Word80) (s : State) : (writeFlags v s).opb = s.opb := rfl
@[simp] theorem writeFlags_opbHeld (v : Word80) (s : State) : (writeFlags v s).opbHeld = s.opbHeld := rfl
@[simp] theorem writeFlags_res (v : Word80) (s : State) : (writeFlags v s).res = s.res := rfl
@[simp] theorem writeFlags_resHeld (v : Word80) (s : State) : (writeFlags v s).resHeld = s.resHeld := rfl
@[simp] theorem writeFlags_ctrl (v : Word80) (s : State) : (writeFlags v s).ctrl = s.ctrl := rfl
@[simp] theorem writeFlags_flags (v : Word80) (s : State) : (writeFlags v s).flags = v.setWidth 16 &&& flagsMask := rfl
@[simp] theorem writeFlags_script (v : Word80) (s : State) : (writeFlags v s).script = s.script := rfl
@[simp] theorem writeFlags_readings (v : Word80) (s : State) : (writeFlags v s).readings = s.readings := rfl

/-! ### `record` -/

@[simp] theorem record_opa (n : Nat) (v : Word80) (s : State) : (record n v s).opa = s.opa := rfl
@[simp] theorem record_opaHeld (n : Nat) (v : Word80) (s : State) : (record n v s).opaHeld = s.opaHeld := rfl
@[simp] theorem record_opb (n : Nat) (v : Word80) (s : State) : (record n v s).opb = s.opb := rfl
@[simp] theorem record_opbHeld (n : Nat) (v : Word80) (s : State) : (record n v s).opbHeld = s.opbHeld := rfl
@[simp] theorem record_res (n : Nat) (v : Word80) (s : State) : (record n v s).res = s.res := rfl
@[simp] theorem record_resHeld (n : Nat) (v : Word80) (s : State) : (record n v s).resHeld = s.resHeld := rfl
@[simp] theorem record_ctrl (n : Nat) (v : Word80) (s : State) : (record n v s).ctrl = s.ctrl := rfl
@[simp] theorem record_flags (n : Nat) (v : Word80) (s : State) : (record n v s).flags = s.flags := rfl
@[simp] theorem record_script (n : Nat) (v : Word80) (s : State) : (record n v s).script = s.script := rfl
@[simp] theorem record_readings (n : Nat) (v : Word80) (s : State) : (record n v s).readings = ⟨n, v⟩ :: s.readings := rfl

/-! ### `resetBlock` -/

@[simp] theorem resetBlock_opa (s : State) : (resetBlock s).opa = 0 := rfl
@[simp] theorem resetBlock_opaHeld (s : State) : (resetBlock s).opaHeld = false := rfl
@[simp] theorem resetBlock_opb (s : State) : (resetBlock s).opb = 0 := rfl
@[simp] theorem resetBlock_opbHeld (s : State) : (resetBlock s).opbHeld = false := rfl
@[simp] theorem resetBlock_res (s : State) : (resetBlock s).res = 0 := rfl
@[simp] theorem resetBlock_resHeld (s : State) : (resetBlock s).resHeld = false := rfl
@[simp] theorem resetBlock_ctrl (s : State) : (resetBlock s).ctrl = 0x000C#16 := rfl
@[simp] theorem resetBlock_flags (s : State) : (resetBlock s).flags = 0x0000#16 := rfl
@[simp] theorem resetBlock_script (s : State) : (resetBlock s).script = s.script := rfl
@[simp] theorem resetBlock_readings (s : State) : (resetBlock s).readings = s.readings := rfl

/-! ### `issueWord` -/

@[simp] theorem issueWord_opa (w : Word16) (s : State) : (issueWord w s).opa = s.opa := rfl
@[simp] theorem issueWord_opaHeld (w : Word16) (s : State) : (issueWord w s).opaHeld = true := rfl
@[simp] theorem issueWord_opb (w : Word16) (s : State) : (issueWord w s).opb = s.opb := rfl
@[simp] theorem issueWord_opbHeld (w : Word16) (s : State) : (issueWord w s).opbHeld = true := rfl
@[simp] theorem issueWord_res (w : Word16) (s : State) : (issueWord w s).res = s.res := rfl
@[simp] theorem issueWord_resHeld (w : Word16) (s : State) : (issueWord w s).resHeld = s.resHeld := rfl
@[simp] theorem issueWord_ctrl (w : Word16) (s : State) : (issueWord w s).ctrl = s.ctrl := rfl
@[simp] theorem issueWord_flags (w : Word16) (s : State) : (issueWord w s).flags = s.flags := rfl
@[simp] theorem issueWord_script (w : Word16) (s : State) : (issueWord w s).script = .wr 5 (w.setWidth 80) :: s.script := rfl
@[simp] theorem issueWord_readings (w : Word16) (s : State) : (issueWord w s).readings = s.readings := rfl

end Sys2Proof.Machine
end

