-- ==== Sys2Proof/Laws/Ops.lean ====
section
/-! SUPPORT. One lemma for each shared operation that says everything it can do, for the provers to cite instead of
unfolding it. -/

namespace Sys2Proof.Machine

/-! ### The Status Context -/

/-- CTRL gives no Status Context exactly when its PC field is 1. -/
theorem precisionOf_eq_none_iff (ctrl : Word16) : precisionOf ctrl = none ↔ ctrl.extractLsb' 2 2 = 1#2 := by
  unfold precisionOf
  generalize ctrl.extractLsb' 2 2 = p
  revert p
  decide

/-- Where PC is legal, CTRL gives a Status Context, of these four fields. -/
theorem contextOf_eq_some_iff (ctrl : Word16) (c : Context) :
    contextOf ctrl = some c ↔ precisionOf ctrl = some c.prec ∧ c.rm = roundingOf ctrl ∧
      c.nanMode = nanModeOf ctrl ∧ c.ftz = ctrl.getLsbD 5 := by
  unfold contextOf
  cases h : precisionOf ctrl with
  | none => simp
  | some p =>
    cases c
    simp only [Option.some.injEq, Context.mk.injEq]
    constructor
    · rintro ⟨rfl, rfl, rfl, rfl⟩
      simp
    · rintro ⟨rfl, rfl, rfl, rfl⟩
      simp

/-- A command that is ready runs under the Status Context that CTRL gives. -/
theorem Ready.exists_context {i : Instr} {s : State} (h : Ready i s) : ∃ c, ReadyUnder i s c := by
  obtain ⟨hpc, ha, hb⟩ := h
  cases hp : precisionOf s.ctrl with
  | none => exact absurd ((precisionOf_eq_none_iff _).1 hp) hpc
  | some p => exact ⟨_, (contextOf_eq_some_iff s.ctrl ⟨roundingOf s.ctrl, p, nanModeOf s.ctrl, s.ctrl.getLsbD 5⟩).2
      ⟨hp, rfl, rfl, rfl⟩, ha, hb⟩

/-- A command that has a Status Context and its operands is ready. -/
theorem ReadyUnder.ready {i : Instr} {s : State} {c : Context} (h : ReadyUnder i s c) : Ready i s := by
  refine ⟨fun hpc => ?_, h.2⟩
  have hc := h.1
  rw [contextOf, (precisionOf_eq_none_iff _).2 hpc] at hc
  simp at hc

/-! ### The command step -/

/-- Everything the one-operand command step can do. -/
theorem command1_cases (op : Context → Word80 → Result) (s : State) :
    (contextOf s.ctrl = none ∧ command1 op s = .refused .reservedPrecision) ∨
    (∃ c, contextOf s.ctrl = some c ∧ s.opaHeld = false ∧ command1 op s = .refused .opaUnwritten) ∨
    (∃ c, contextOf s.ctrl = some c ∧ s.opaHeld = true ∧ command1 op s = .next (complete s (op c s.opa))) := by
  unfold command1
  cases hc : contextOf s.ctrl with
  | none => simp
  | some c => cases ha : s.opaHeld <;> simp

/-- Everything the two-operand command step can do. -/
theorem command2_cases (op : Context → Word80 → Word80 → Result) (s : State) :
    (contextOf s.ctrl = none ∧ command2 op s = .refused .reservedPrecision) ∨
    (∃ c, contextOf s.ctrl = some c ∧ s.opaHeld = false ∧ command2 op s = .refused .opaUnwritten) ∨
    (∃ c, contextOf s.ctrl = some c ∧ s.opaHeld = true ∧ s.opbHeld = false ∧
      command2 op s = .refused .opbUnwritten) ∨
    (∃ c, contextOf s.ctrl = some c ∧ s.opaHeld = true ∧ s.opbHeld = true ∧
      command2 op s = .next (complete s (op c s.opa s.opb))) := by
  unfold command2
  cases hc : contextOf s.ctrl with
  | none => simp
  | some c => cases ha : s.opaHeld <;> cases hb : s.opbHeld <;> simp

/-- A one-operand command completes where it has a Status Context and an operand. -/
theorem command1_of_context {op : Context → Word80 → Result} {s : State} {c : Context}
    (hc : contextOf s.ctrl = some c) (ha : s.opaHeld = true) :
    command1 op s = .next (complete s (op c s.opa)) := by
  simp [command1, hc, ha]

/-- A two-operand command completes where it has a Status Context and both operands. -/
theorem command2_of_context {op : Context → Word80 → Word80 → Result} {s : State} {c : Context}
    (hc : contextOf s.ctrl = some c) (ha : s.opaHeld = true) (hb : s.opbHeld = true) :
    command2 op s = .next (complete s (op c s.opa s.opb)) := by
  simp [command2, hc, ha, hb]

/-- The meaning of a one-operand command is the one-operand command step of one pure function, in every state. -/
theorem exec_eq_command1 {i : Instr} (h : readsOpb i = false) :
    ∃ op : Context → Word80 → Result, ∀ s, exec i s = command1 op s := by
  cases i <;> first
    | exact Bool.noConfusion h
    | exact ⟨_, fun _ => rfl⟩
    | exact ⟨fun _ a => classResult .S (fltOperand .S a), fun _ => rfl⟩
    | exact ⟨fun _ a => classResult .D (fltOperand .D a), fun _ => rfl⟩
    | exact ⟨fun _ a => snanResult .S (fltOperand .S a), fun _ => rfl⟩
    | exact ⟨fun _ a => snanResult .D (fltOperand .D a), fun _ => rfl⟩

/-- The meaning of a two-operand command is the two-operand command step of one pure function, in every state. -/
theorem exec_eq_command2 {i : Instr} (h : readsOpb i = true) :
    ∃ op : Context → Word80 → Word80 → Result, ∀ s, exec i s = command2 op s := by
  cases i <;> first
    | exact Bool.noConfusion h
    | exact ⟨_, fun _ => rfl⟩

/-! ### The host's transactions -/

/-- Everything a host write can do. -/
theorem hostWrite_cases (n : Nat) (v : Word80) (s : State) :
    (n = 0 ∧ hostWrite n v s = .next (writeOpa v s)) ∨ (n = 1 ∧ hostWrite n v s = .next (writeOpb v s)) ∨
    (n = 2 ∧ hostWrite n v s = .refused .resReadOnly) ∨ (n = 3 ∧ hostWrite n v s = .next (writeCtrl v s)) ∨
    (n = 4 ∧ hostWrite n v s = .next (writeFlags v s)) ∨
    (n = 5 ∧ hostWrite n v s = commandStep (v.setWidth 16) s) ∨
    (6 ≤ n ∧ hostWrite n v s = .refused .noSuchRegister) := by
  match n with
  | 0 | 1 | 2 | 3 | 4 | 5 => simp [hostWrite]
  | n + 6 => simp [hostWrite]

/-- A host read answers a next state that differs in the readings alone, or is refused. -/
theorem hostRead_cases (n : Nat) (s : State) :
    (∃ v, readRegister n s = .ok v ∧ hostRead n s = .next (record n v s)) ∨
    (∃ why, readRegister n s = .error why ∧ hostRead n s = .refused why) := by
  unfold hostRead
  cases readRegister n s <;> simp

/-- The command step is the meaning of the decoded command, or refuses the reserved word. -/
theorem commandStep_cases (w : Word16) (s : State) :
    (∃ i, decode Config.fpe1 w = .ok i ∧ commandStep w s = exec i s) ∨
    (∃ why, decode Config.fpe1 w = .error why ∧ commandStep w s = .refused (.reservedWord why)) := by
  unfold commandStep
  cases decode Config.fpe1 w <;> simp

/-- A step performs the first transaction of the script on the state without it. -/
theorem step_eq_perform {s : State} {e : HostEvent} {rest : List HostEvent} (h : s.script = e :: rest) :
    step s = perform e { s with script := rest } := by
  simp [step, performNext, h]

/-- With no transaction pending a step changes nothing. -/
theorem step_of_empty {s : State} (h : s.script = []) : step s = .next s := by
  simp [step, performNext, h]

/-! ### Flags -/

/-- `raiseIf` raises the flag under its condition only. -/
@[simp] theorem raiseIf_true (fl : Flag) : raiseIf true fl = fl.bit := rfl
@[simp] theorem raiseIf_false (fl : Flag) : raiseIf false fl = 0#16 := rfl

@[simp] theorem Result.also_value (r : Result) (add : Word16) : (r.also add).value = r.value := rfl
@[simp] theorem Result.also_flags (r : Result) (add : Word16) : (r.also add).flags = add ||| r.flags := rfl

/-- Every flag's bit lies among the bits of FLAGS that exist. -/
theorem Flag.bit_in_mask (fl : Flag) : fl.bit &&& flagsMask = fl.bit := by cases fl <;> decide

end Sys2Proof.Machine
end

