-- ==== Sys2Proof/Laws/PerInstr.lean ====
section
/-! SUPPORT. What holds of each instruction as syntax: its word, read by the decoder, gives it back, and it is well
formed for the instance the spec fixes. -/

namespace Sys2Proof.Laws.DecodesFromItsWord

-- One declaration at a time: many theorems at once exhaust the sandbox's threads.
set_option Elab.async false

/-- The 16-bit word of the command, given to the decoder, is that command, and the command is well formed. -/
def Statement (i : Instr) : Prop := decodeTableWord 16 (encode i).toNat = some i ∧ i.wf Config.fpe1 = true

theorem faddS : Statement .faddS := ⟨rfl, rfl⟩
theorem faddD : Statement .faddD := ⟨rfl, rfl⟩
theorem faddX : Statement .faddX := ⟨rfl, rfl⟩
theorem fsubS : Statement .fsubS := ⟨rfl, rfl⟩
theorem fsubD : Statement .fsubD := ⟨rfl, rfl⟩
theorem fsubX : Statement .fsubX := ⟨rfl, rfl⟩
theorem fmulS : Statement .fmulS := ⟨rfl, rfl⟩
theorem fmulD : Statement .fmulD := ⟨rfl, rfl⟩
theorem fmulX : Statement .fmulX := ⟨rfl, rfl⟩
theorem fdivS : Statement .fdivS := ⟨rfl, rfl⟩
theorem fdivD : Statement .fdivD := ⟨rfl, rfl⟩
theorem fdivX : Statement .fdivX := ⟨rfl, rfl⟩
theorem fsqrtS : Statement .fsqrtS := ⟨rfl, rfl⟩
theorem fsqrtD : Statement .fsqrtD := ⟨rfl, rfl⟩
theorem fsqrtX : Statement .fsqrtX := ⟨rfl, rfl⟩
theorem frintS : Statement .frintS := ⟨rfl, rfl⟩
theorem frintD : Statement .frintD := ⟨rfl, rfl⟩
theorem frintX : Statement .frintX := ⟨rfl, rfl⟩
theorem feqS : Statement .feqS := ⟨rfl, rfl⟩
theorem feqD : Statement .feqD := ⟨rfl, rfl⟩
theorem feqX : Statement .feqX := ⟨rfl, rfl⟩
theorem fltS : Statement .fltS := ⟨rfl, rfl⟩
theorem fltD : Statement .fltD := ⟨rfl, rfl⟩
theorem fltX : Statement .fltX := ⟨rfl, rfl⟩
theorem fleS : Statement .fleS := ⟨rfl, rfl⟩
theorem fleD : Statement .fleD := ⟨rfl, rfl⟩
theorem fleX : Statement .fleX := ⟨rfl, rfl⟩
theorem funS : Statement .funS := ⟨rfl, rfl⟩
theorem funD : Statement .funD := ⟨rfl, rfl⟩
theorem funX : Statement .funX := ⟨rfl, rfl⟩
theorem feqsS : Statement .feqsS := ⟨rfl, rfl⟩
theorem feqsD : Statement .feqsD := ⟨rfl, rfl⟩
theorem feqsX : Statement .feqsX := ⟨rfl, rfl⟩
theorem fltsS : Statement .fltsS := ⟨rfl, rfl⟩
theorem fltsD : Statement .fltsD := ⟨rfl, rfl⟩
theorem fltsX : Statement .fltsX := ⟨rfl, rfl⟩
theorem flesS : Statement .flesS := ⟨rfl, rfl⟩
theorem flesD : Statement .flesD := ⟨rfl, rfl⟩
theorem flesX : Statement .flesX := ⟨rfl, rfl⟩
theorem funsS : Statement .funsS := ⟨rfl, rfl⟩
theorem funsD : Statement .funsD := ⟨rfl, rfl⟩
theorem funsX : Statement .funsX := ⟨rfl, rfl⟩
theorem fcmpS : Statement .fcmpS := ⟨rfl, rfl⟩
theorem fcmpD : Statement .fcmpD := ⟨rfl, rfl⟩
theorem fcmpX : Statement .fcmpX := ⟨rfl, rfl⟩
theorem fcmpsS : Statement .fcmpsS := ⟨rfl, rfl⟩
theorem fcmpsD : Statement .fcmpsD := ⟨rfl, rfl⟩
theorem fcmpsX : Statement .fcmpsX := ⟨rfl, rfl⟩
theorem fcvtDS : Statement .fcvtDS := ⟨rfl, rfl⟩
theorem fcvtXS : Statement .fcvtXS := ⟨rfl, rfl⟩
theorem fcvtSD : Statement .fcvtSD := ⟨rfl, rfl⟩
theorem fcvtXD : Statement .fcvtXD := ⟨rfl, rfl⟩
theorem fcvtSX : Statement .fcvtSX := ⟨rfl, rfl⟩
theorem fcvtDX : Statement .fcvtDX := ⟨rfl, rfl⟩
theorem fcvtSW : Statement .fcvtSW := ⟨rfl, rfl⟩
theorem fcvtDW : Statement .fcvtDW := ⟨rfl, rfl⟩
theorem fcvtXW : Statement .fcvtXW := ⟨rfl, rfl⟩
theorem fcvtSL : Statement .fcvtSL := ⟨rfl, rfl⟩
theorem fcvtDL : Statement .fcvtDL := ⟨rfl, rfl⟩
theorem fcvtXL : Statement .fcvtXL := ⟨rfl, rfl⟩
theorem fcvtWS : Statement .fcvtWS := ⟨rfl, rfl⟩
theorem fcvtLS : Statement .fcvtLS := ⟨rfl, rfl⟩
theorem fcvtWD : Statement .fcvtWD := ⟨rfl, rfl⟩
theorem fcvtLD : Statement .fcvtLD := ⟨rfl, rfl⟩
theorem fcvtWX : Statement .fcvtWX := ⟨rfl, rfl⟩
theorem fcvtLX : Statement .fcvtLX := ⟨rfl, rfl⟩
theorem fcvttWS : Statement .fcvttWS := ⟨rfl, rfl⟩
theorem fcvttLS : Statement .fcvttLS := ⟨rfl, rfl⟩
theorem fcvttWD : Statement .fcvttWD := ⟨rfl, rfl⟩
theorem fcvttLD : Statement .fcvttLD := ⟨rfl, rfl⟩
theorem fcvttWX : Statement .fcvttWX := ⟨rfl, rfl⟩
theorem fcvttLX : Statement .fcvttLX := ⟨rfl, rfl⟩
theorem fclassS : Statement .fclassS := ⟨rfl, rfl⟩
theorem fclassD : Statement .fclassD := ⟨rfl, rfl⟩
theorem fclassX : Statement .fclassX := ⟨rfl, rfl⟩
theorem fsnanS : Statement .fsnanS := ⟨rfl, rfl⟩
theorem fsnanD : Statement .fsnanD := ⟨rfl, rfl⟩
theorem fsnanX : Statement .fsnanX := ⟨rfl, rfl⟩

end Sys2Proof.Laws.DecodesFromItsWord
end

