-- ==== Sys2Proof/Tests/Slice0.lean ====
section
/-! SUPPORT. Tests: the checks of WellFormed, the decoder, spec vectors of every command (95_test_vectors.md, 96, 97 and
the corner cases of the family files), the spec's refusals, and for every statement with hypotheses a state and
operands that meet them. -/

namespace Sys2Proof.Tests

-- One declaration at a time: many kernel evaluations at once exhaust the sandbox's threads.
set_option Elab.async false

open Sys2Proof.Machine

/-- A block whose two operand registers hold values. -/
def ready (a b : Word80) (ctrl : Word16) : State :=
  { State.reset with opa := a, opaHeld := true, opb := b, opbHeld := true, ctrl := ctrl }

/-- A block with these transactions pending. -/
def pending (s : State) (es : List HostEvent) : State := { s with script := es }

/-- The next state of a step meets the test. -/
def after (s : State) (p : State → Bool) : Bool :=
  match step s with
  | .next t => p t
  | .fault _ => false
  | .refused _ => false

theorem exists_of_after {s : State} {p : State → Bool} (h : after s p = true) : ∃ t, step s = .next t ∧ p t = true := by
  unfold after at h
  split at h
  · exact ⟨_, ‹_›, h⟩
  · cases h
  · cases h

/-- The command completes on these operands (OPB holding no value where none is given) with this RES and these flags
added to FLAGS = 0, and OPA and CTRL unchanged. -/
def runs (ctrl : Word16) (i : Instr) (a : Word80) (b : Option Word80) (res : Word80) (flags : Word16) : Bool :=
  match exec i { ready a (b.getD 0) ctrl with opbHeld := b.isSome } with
  | .next t => t.res == res && t.resHeld && t.flags == flags && t.opa == a && t.ctrl == ctrl
  | .fault _ => false
  | .refused _ => false

/-! ### WellFormed refuses an ill-formed term for each check -/

theorem test_wf_accepts_the_instance : Config.fpe1.wf = true ∧ Instr.wf Config.fpe1 .feqS = true ∧
    ctrlWf 0x000C#16 = true ∧ scriptWf [.wr 0 1, .wr 1 2, .wr 3 0x3F, .wr 4 0, .wr 5 0x0022, .rd 2, .wrRead 0, .reset] =
      true := by decide +kernel

theorem test_wf_refuses_a_signaling_default_nan :
    Config.Params.wf { Config.fpe1 with defaultNaNS := 0xFF800001#32 } = false ∧
    Config.Params.wf { Config.fpe1 with defaultNaND := 0x3FF8000000000000#64 } = false ∧
    Config.Params.wf { Config.fpe1 with defaultNaNX := 0xFFFF4000000000000000#80 } = false := by decide +kernel

theorem test_wf_refuses_a_command_of_an_absent_group :
    Instr.wf { Config.fpe1 with hasCmp := false } .fcmpX = false ∧
    Instr.wf { Config.fpe1 with hasCmp := false } .faddS = true := by decide +kernel

theorem test_wf_refuses_the_reserved_precision : ctrlWf 0x0004#16 = false := by decide +kernel

theorem test_wf_refuses_bad_transactions :
    HostEvent.wf (.wr 2 0) = false ∧ HostEvent.wf (.wr 6 0) = false ∧ HostEvent.wf (.wr 5 0x10000) = false ∧
    HostEvent.wf (.rd 5) = false ∧ HostEvent.wf (.rd 6) = false ∧ HostEvent.wf (.wrRead 3) = false ∧
    scriptWf [.rd 0, .wr 2 0] = false := by decide +kernel

/-! ### The decoder: words written out field by field from 30_encoding.md R42 to R51 -/

theorem test_decode_words_by_field :
    decode Config.fpe1 (0b0000#4 ++ 0b0000#4 ++ 0b0010#4 ++ 0b0010#4) = .ok .faddX ∧
    decode Config.fpe1 (0b0000#4 ++ 0b0011#4 ++ 0b0001#4 ++ 0b0001#4) = .ok .fdivD ∧
    decode Config.fpe1 (0b0001#4 ++ 0b0101#4 ++ 0b0000#4 ++ 0b1111#4) = .ok .fltsS ∧
    decode Config.fpe1 (0b0010#4 ++ 0b0000#4 ++ 0b0001#4 ++ 0b0010#4) = .ok .fcvtXD ∧
    decode Config.fpe1 (0b0011#4 ++ 0b0000#4 ++ 0b1001#4 ++ 0b0001#4) = .ok .fcvtDL ∧
    decode Config.fpe1 (0b0100#4 ++ 0b0001#4 ++ 0b0010#4 ++ 0b1000#4) = .ok .fcvttWX ∧
    decode Config.fpe1 (0b0101#4 ++ 0b0000#4 ++ 0b0001#4 ++ 0b1111#4) = .ok .fclassD := by decide +kernel

/-- 30_encoding.md R52: one reserved word for each reason. -/
theorem test_decode_reserved_words :
    decode Config.fpe1 0x6000#16 = .error .group ∧ decode Config.fpe1 0xFFFF#16 = .error .group ∧
    decode Config.fpe1 0x0600#16 = .error .function ∧ decode Config.fpe1 0x0001#16 = .error .formatsDiffer ∧
    decode Config.fpe1 0x1000#16 = .error .destination ∧ decode Config.fpe1 0x108F#16 = .error .source ∧
    decode Config.fpe1 0x2011#16 = .error .formatsEqual ∧ decode Config.fpe1 0x3000#16 = .error .source ∧
    decode Config.fpe1 0x4000#16 = .error .destination ∧
    decode { Config.fpe1 with hasCmp := false } 0x100F#16 = .error .groupAbsent := by decide +kernel

/-! ### The machine's steps -/

/-- The word given to the machine is the next one it runs, from reset (0 + 0 = 0; FADD.S). -/
theorem test_the_fetched_word_runs :
    after (State.reset.withFetchWord 16 0x0000) (fun t => t.resHeld && t.script == []) = true ∧
    step (State.reset.withFetchWord 16 0x0600) = .refused (.reservedWord .function) := by
  constructor
  · decide +kernel
  · rfl

/-- 95_test_vectors.md P6: scripts to which the rules give no end state. -/
theorem test_the_spec_refusals :
    step (pending State.reset [.wr 5 0x0000]) = .refused .opaUnwritten ∧
    step (pending { State.reset with opaHeld := true } [.wr 5 0x0000]) = .refused .opbUnwritten ∧
    step (pending (ready 0 0 0x0004) [.wr 5 0x0000]) = .refused .reservedPrecision ∧
    step (pending (ready 0 0 0x000C) [.wr 5 0x0001]) = .refused (.reservedWord .formatsDiffer) ∧
    step (pending State.reset [.rd 2]) = .refused .resUnwritten ∧
    step (pending State.reset [.wr 2 0]) = .refused .resReadOnly ∧
    step (pending State.reset [.rd 5]) = .refused .cmdWriteOnly ∧
    step (pending State.reset [.rd 6]) = .refused .noSuchRegister ∧
    step (pending State.reset [.wrRead 0]) = .refused .nothingRead :=
  ⟨rfl, rfl, rfl, rfl, rfl, rfl, rfl, rfl, rfl⟩

/-- 10_state.md R16, R20, R21: reserved bits do not store, and flags accumulate. -/
theorem test_register_writes :
    after (pending State.reset [.wr 3 0xFFFF]) (fun t => t.ctrl == 0x003F#16) = true ∧
    after (pending State.reset [.wr 4 0xFFFF]) (fun t => t.flags == 0x023F#16) = true ∧
    after (pending { ready 0x7FA00000 0 0x000C with flags := 0x0020 } [.wr 5 0x0000]) (fun t => t.flags == 0x0021#16) =
      true := by decide +kernel

/-- 30_encoding.md R57: SETCTX and CLRF write the words of their rows. -/
theorem test_pseudo_instructions :
    after (pending State.reset (setctx 1 2 true false)) (fun t => t.ctrl == 0x0019#16) = true ∧
    after (pending { State.reset with flags := 0x023F } clrf) (fun t => t.flags == 0#16) = true := by decide +kernel

/-- 20_memory.md R35: the byte image of extended80 1.0. -/
theorem test_byte_image_of_one :
    toBytes .X 0x3FFF8000000000000000 = [0, 0, 0, 0, 0, 0, 0, 0x80, 0xFF, 0x3F] := by decide +kernel

/-! ### Spec vectors, two a command -/

/-- Spec vectors V42.21, T2.1, T7.15, T5.1, V42.29, T2.13. -/
theorem test_fadd_vectors :
    runs 0x000E .faddS 0x7F7FFFFF (some 0x1) 0x7F800000 0x002A = true ∧
    runs 0x000C .faddS 0x3F800000 (some 0x33800000) 0x3F800000 0x0020 = true ∧
    runs 0x002C .faddD 0x10000000000001 (some 0x8010000000000000) 0x0 0x0030 = true ∧
    runs 0x000C .faddD 0x3FF0000000000000 (some 0x3CA0000000000000) 0x3FF0000000000000 0x0020 = true ∧
    runs 0x000E .faddX 0x3FFF8000000000000000 (some 0x3FBF8000000000000000) 0x3FFF8000000000000001 0x0220 = true ∧
    runs 0x000D .faddX 0x3FFFC90FDAA22168C235 (some 0xBFFBCCCCCCCCCCCCCCCD) 0x3FFFBC430DD5549BF568 0x0020 = true := by
  decide +kernel

/-- Spec vectors V42.18, T8.2, T5.10, T5.12, R121, R121. -/
theorem test_fsub_vectors :
    runs 0x002C .fsubS 0x800000 (some 0x7FFFFF) 0x0 0x0032 = true ∧
    runs 0x000C .fsubS 0x3F800000 (some 0x7FA00000) 0x7FE00000 0x0001 = true ∧
    runs 0x000F .fsubD 0xBFF0000000000000 (some 0x3CA0000000000000) 0xBFF0000000000000 0x0020 = true ∧
    runs 0x000D .fsubD 0xBFF0000000000000 (some 0x3CA0000000000000) 0xBFF0000000000001 0x0020 = true ∧
    runs 0x000C .fsubX 0x3FFF8000000000000000 (some 0x3FFF8000000000000001) 0xBFC08000000000000000 0x0000 = true ∧
    runs 0x000C .fsubX 0x7FFF8000000000000000 (some 0x7FFF8000000000000000) 0xFFFFC000000000000000 0x0001 = true := by
  decide +kernel

/-- Spec vectors V43.16, T2.19, T7.12, T2.9, T6.11, T6.12. -/
theorem test_fmul_vectors :
    runs 0x000E .fmulS 0x1 (some 0x1) 0x1 0x0032 = true ∧
    runs 0x001C .fmulS 0x7FC00001 (some 0x7FC00002) 0x7FC00001 0x0000 = true ∧
    runs 0x000E .fmulD 0x1 (some 0x3FD0000000000000) 0x1 0x0032 = true ∧
    runs 0x000C .fmulD 0x3FD5555555555555 (some 0xC008000000000001) 0xBFF0000000000000 0x0020 = true ∧
    runs 0x000C .fmulX 0x7FFEFFFFFFFFFFFFFFFF (some 0x40008000000000000000) 0x7FFF8000000000000000 0x0228 = true ∧
    runs 0x000F .fmulX 0x7FFEFFFFFFFFFFFFFFFF (some 0x40008000000000000000) 0x7FFEFFFFFFFFFFFFFFFF 0x0028 = true := by
  decide +kernel

/-- Spec vectors V44.18, T3.12, V44.25, T3.6, V41.50, T12.7. -/
theorem test_fdiv_vectors :
    runs 0x000E .fdivS 0x1 (some 0x40000000) 0x1 0x0032 = true ∧
    runs 0x000C .fdivS 0x3F800000 (some 0xBF800000) 0xBF800000 0x0000 = true ∧
    runs 0x000C .fdivD 0x3FF0000000000000 (some 0x4024000000000000) 0x3FB999999999999A 0x0020 = true ∧
    runs 0x000D .fdivD 0x3FB999999999999A (some 0x3FB999999999999A) 0x3FF0000000000000 0x0000 = true ∧
    runs 0x000E .fdivX 0x3FFF8000000000000000 (some 0x4000C000000000000000) 0x3FFDAAAAAAAAAAAAAAAB 0x0220 = true ∧
    runs 0x0008 .fdivX 0x3FFF8000000000000000 (some 0x4000C000000000000000) 0x3FFDAAAAAAAAAAAAA800 0x0020 = true := by
  decide +kernel

/-- Spec vectors V45.3, T8.5, V45.19, T10.18, V45.21, T10.19. -/
theorem test_fsqrt_vectors :
    runs 0x000D .fsqrtS 0x40000000 none 0x3FB504F3 0x0020 = true ∧
    runs 0x000C .fsqrtS 0x7FA00000 none 0x7FE00000 0x0001 = true ∧
    runs 0x000C .fsqrtD 0x2 none 0x1E66A09E667F3BCD 0x0022 = true ∧
    runs 0x000C .fsqrtD 0xC010000000000000 none 0xFFF8000000000000 0x0001 = true ∧
    runs 0x000E .fsqrtX 0x40008000000000000000 none 0x3FFFB504F333F9DE6485 0x0220 = true ∧
    runs 0x000C .fsqrtX 0xC0018000000000000000 none 0xFFFFC000000000000000 0x0001 = true := by
  decide +kernel

/-- Spec vectors V46.36, T8.7, V46.44, V46.43, V46.48, T12.11. -/
theorem test_frint_vectors :
    runs 0x000E .frintS 0x1 none 0x3F800000 0x0022 = true ∧
    runs 0x000C .frintS 0x7FA00000 none 0x7FE00000 0x0001 = true ∧
    runs 0x000F .frintD 0xBFECCCCCCCCCCCCD none 0x8000000000000000 0x0020 = true ∧
    runs 0x000C .frintD 0x433FFFFFFFFFFFFF none 0x433FFFFFFFFFFFFF 0x0000 = true ∧
    runs 0x000E .frintX 0x8000000000000000 none 0x3FFF8000000000000000 0x0222 = true ∧
    runs 0x0000 .frintX 0x3FFFC000000000000001 none 0x40008000000000000000 0x0220 = true := by
  decide +kernel

/-- Spec vectors R170, T4.7, R171, R171, R172, T4.25. -/
theorem test_feq_vectors :
    runs 0x000C .feqS 0x80000001 (some 0x0) 0x0 0x0002 = true ∧
    runs 0x000C .feqS 0x0 (some 0x80000000) 0x1 0x0000 = true ∧
    runs 0x000C .feqD 0x1 (some 0x0) 0x0 0x0002 = true ∧
    runs 0x000C .feqD 0x0 (some 0x8000000000000000) 0x1 0x0000 = true ∧
    runs 0x000C .feqX 0x8000000000000000 (some 0x18000000000000000) 0x1 0x0002 = true ∧
    runs 0x000C .feqX 0x40008000000000000000 (some 0x3FFF8000000000000000) 0x0 0x0000 = true := by
  decide +kernel

/-- Spec vectors R173, T11.5, R174, R174, R175, R175. -/
theorem test_flt_vectors :
    runs 0x000C .fltS 0x80000001 (some 0x0) 0x1 0x0002 = true ∧
    runs 0x000C .fltS 0x3F800000 (some 0x7FC00000) 0x0 0x0000 = true ∧
    runs 0x000C .fltD 0x1 (some 0x0) 0x0 0x0002 = true ∧
    runs 0x000C .fltD 0x3FF0000000000000 (some 0x4000000000000000) 0x1 0x0000 = true ∧
    runs 0x000C .fltX 0x8000000000000000 (some 0x18000000000000000) 0x0 0x0002 = true ∧
    runs 0x000C .fltX 0x3FFF8000000000000000 (some 0x40008000000000000000) 0x1 0x0000 = true := by
  decide +kernel

/-- Spec vectors R176, V47.13, R177, V47.60, R178, R178. -/
theorem test_fle_vectors :
    runs 0x000C .fleS 0x80000001 (some 0x0) 0x1 0x0002 = true ∧
    runs 0x000C .fleS 0x40000000 (some 0x3F800000) 0x0 0x0000 = true ∧
    runs 0x000C .fleD 0x1 (some 0x0) 0x0 0x0002 = true ∧
    runs 0x000C .fleD 0x8000000000000000 (some 0x0) 0x1 0x0000 = true ∧
    runs 0x000C .fleX 0x8000000000000000 (some 0x18000000000000000) 0x1 0x0002 = true ∧
    runs 0x000C .fleX 0x7FFFC000000000000000 (some 0x3FFF8000000000000000) 0x0 0x0000 = true := by
  decide +kernel

/-- Spec vectors R179, T4.12, R180, T4.24, R181, R181. -/
theorem test_fun_vectors :
    runs 0x000C .funS 0x80000001 (some 0x0) 0x0 0x0002 = true ∧
    runs 0x000C .funS 0x7FC00000 (some 0x3F800000) 0x1 0x0000 = true ∧
    runs 0x000C .funD 0x1 (some 0x0) 0x0 0x0002 = true ∧
    runs 0x000C .funD 0x7FF0000000000001 (some 0x3FF0000000000000) 0x1 0x0001 = true ∧
    runs 0x000C .funX 0x8000000000000000 (some 0x18000000000000000) 0x0 0x0002 = true ∧
    runs 0x000C .funX 0x7FFFC000000000000000 (some 0x3FFF8000000000000000) 0x1 0x0000 = true := by
  decide +kernel

/-- Spec vectors R182, R182, R183, R183, R184, R184. -/
theorem test_feqs_vectors :
    runs 0x000C .feqsS 0x80000001 (some 0x0) 0x0 0x0002 = true ∧
    runs 0x000C .feqsS 0x0 (some 0x80000000) 0x1 0x0000 = true ∧
    runs 0x000C .feqsD 0x1 (some 0x0) 0x0 0x0002 = true ∧
    runs 0x000C .feqsD 0x0 (some 0x8000000000000000) 0x1 0x0000 = true ∧
    runs 0x000C .feqsX 0x8000000000000000 (some 0x18000000000000000) 0x1 0x0002 = true ∧
    runs 0x000C .feqsX 0x7FFFC000000000000000 (some 0x3FFF8000000000000000) 0x0 0x0001 = true := by
  decide +kernel

/-- Spec vectors R185, T11.6, R186, R186, R187, R187. -/
theorem test_flts_vectors :
    runs 0x000C .fltsS 0x80000001 (some 0x0) 0x1 0x0002 = true ∧
    runs 0x000C .fltsS 0x3F800000 (some 0x7FC00000) 0x0 0x0001 = true ∧
    runs 0x000C .fltsD 0x1 (some 0x0) 0x0 0x0002 = true ∧
    runs 0x000C .fltsD 0x3FF0000000000000 (some 0x4000000000000000) 0x1 0x0000 = true ∧
    runs 0x000C .fltsX 0x8000000000000000 (some 0x18000000000000000) 0x0 0x0002 = true ∧
    runs 0x000C .fltsX 0x3FFF8000000000000000 (some 0x40008000000000000000) 0x1 0x0000 = true := by
  decide +kernel

/-- Spec vectors R188, V47.17, R189, R189, R190, R190. -/
theorem test_fles_vectors :
    runs 0x000C .flesS 0x80000001 (some 0x0) 0x1 0x0002 = true ∧
    runs 0x000C .flesS 0x40000000 (some 0x3F800000) 0x0 0x0000 = true ∧
    runs 0x000C .flesD 0x1 (some 0x0) 0x0 0x0002 = true ∧
    runs 0x000C .flesD 0x0 (some 0x8000000000000000) 0x1 0x0000 = true ∧
    runs 0x000C .flesX 0x8000000000000000 (some 0x18000000000000000) 0x1 0x0002 = true ∧
    runs 0x000C .flesX 0x7FFFC000000000000000 (some 0x3FFF8000000000000000) 0x0 0x0001 = true := by
  decide +kernel

/-- Spec vectors R191, V47.38, R192, R192, R193, R193. -/
theorem test_funs_vectors :
    runs 0x000C .funsS 0x80000001 (some 0x0) 0x0 0x0002 = true ∧
    runs 0x000C .funsS 0x7FC00000 (some 0x3F800000) 0x1 0x0001 = true ∧
    runs 0x000C .funsD 0x1 (some 0x0) 0x0 0x0002 = true ∧
    runs 0x000C .funsD 0x7FF8000000000000 (some 0x3FF0000000000000) 0x1 0x0001 = true ∧
    runs 0x000C .funsX 0x8000000000000000 (some 0x18000000000000000) 0x0 0x0002 = true ∧
    runs 0x000C .funsX 0x7FFFC000000000000000 (some 0x3FFF8000000000000000) 0x1 0x0001 = true := by
  decide +kernel

/-- Spec vectors V47.52, T4.11, R195, T4.23, V47.62, T4.26. -/
theorem test_fcmp_vectors :
    runs 0x002C .fcmpS 0x1 (some 0x0) 0x2 0x0002 = true ∧
    runs 0x000C .fcmpS 0x7FC00000 (some 0x3F800000) 0x3 0x0000 = true ∧
    runs 0x000C .fcmpD 0x1 (some 0x0) 0x2 0x0002 = true ∧
    runs 0x000C .fcmpD 0x7FF0000000000001 (some 0x3FF0000000000000) 0x3 0x0001 = true ∧
    runs 0x000C .fcmpX 0x8000000000000000 (some 0x18000000000000000) 0x1 0x0002 = true ∧
    runs 0x000C .fcmpX 0x40008000000000000000 (some 0x3FFF8000000000000000) 0x2 0x0000 = true := by
  decide +kernel

/-- Spec vectors R197, T11.2, R198, R198, R199, R199. -/
theorem test_fcmps_vectors :
    runs 0x000C .fcmpsS 0x80000001 (some 0x0) 0x0 0x0002 = true ∧
    runs 0x000C .fcmpsS 0x7FC00000 (some 0x3F800000) 0x3 0x0001 = true ∧
    runs 0x000C .fcmpsD 0x1 (some 0x0) 0x2 0x0002 = true ∧
    runs 0x000C .fcmpsD 0x7FF8000000000000 (some 0x3FF0000000000000) 0x3 0x0001 = true ∧
    runs 0x000C .fcmpsX 0x8000000000000000 (some 0x18000000000000000) 0x1 0x0002 = true ∧
    runs 0x000C .fcmpsX 0x7FFFC000000000000000 (some 0x3FFF8000000000000000) 0x3 0x0001 = true := by
  decide +kernel

/-- Spec vectors T1.23, T8.15, V48a.10, V48a.13, T13.16, T1.2, V48a.15, T1.17, V48a.45, T1.4, V48a.50, V48a.54. -/
theorem test_fcvt_float_to_float_vectors :
    runs 0x000F .fcvtDS 0x40490FDB none 0x400921FB60000000 0x0000 = true ∧
    runs 0x000C .fcvtDS 0x7FA00000 none 0x7FFC000000000000 0x0001 = true ∧
    runs 0x000C .fcvtXS 0x1 none 0x3F6A8000000000000000 0x0002 = true ∧
    runs 0x0000 .fcvtXS 0x3F800001 none 0x3FFF8000010000000000 0x0000 = true ∧
    runs 0x000E .fcvtSD 0x3690000000000000 none 0x1 0x0030 = true ∧
    runs 0x000C .fcvtSD 0x400921FB60000000 none 0x40490FDB 0x0000 = true ∧
    runs 0x000C .fcvtXD 0x1 none 0x3BCD8000000000000000 0x0002 = true ∧
    runs 0x000C .fcvtXD 0x400921FB54442D18 none 0x4000C90FDAA22168C000 0x0000 = true ∧
    runs 0x000E .fcvtSX 0x8000000000000000 none 0x1 0x0030 = true ∧
    runs 0x000C .fcvtSX 0x4000C90FDB0000000000 none 0x40490FDB 0x0000 = true ∧
    runs 0x000C .fcvtDX 0x3BCC8000000000000000 none 0x0 0x0030 = true ∧
    runs 0x0000 .fcvtDX 0x3FFF8000000000000400 none 0x3FF0000000000000 0x0020 = true := by
  decide +kernel

/-- Spec vectors T13.3, T13.1, T13.6, V48b.11, V48b.13, V48b.15, V48b.16, V48b.19, V48b.22, T12.12, T13.8. -/
theorem test_fcvt_int_to_float_vectors :
    runs 0x000E .fcvtSW 0x1000001 none 0x4B800001 0x0020 = true ∧
    runs 0x000C .fcvtSW 0x1000000 none 0x4B800000 0x0000 = true ∧
    runs 0x000C .fcvtDW 0x7FFFFFFF none 0x41DFFFFFFFC00000 0x0000 = true ∧
    runs 0x000C .fcvtDW 0x80000000 none 0xC1E0000000000000 0x0000 = true ∧
    runs 0x000C .fcvtXW 0xFFFFFFFE none 0xC0008000000000000000 0x0000 = true ∧
    runs 0x000F .fcvtSL 0x7FFFFFFFFFFFFFFF none 0x5EFFFFFF 0x0020 = true ∧
    runs 0x000C .fcvtSL 0x8000000000000000 none 0xDF000000 0x0000 = true ∧
    runs 0x000D .fcvtDL 0x7FFFFFFFFFFFFFFF none 0x43DFFFFFFFFFFFFF 0x0020 = true ∧
    runs 0x000C .fcvtDL 0xFFE0000000000001 none 0xC33FFFFFFFFFFFFF 0x0000 = true ∧
    runs 0x0000 .fcvtXL 0x7FFFFFFFFFFFFFFF none 0x403DFFFFFFFFFFFFFFFE 0x0000 = true ∧
    runs 0x000C .fcvtXL 0x8000000000000000 none 0xC03E8000000000000000 0x0000 = true := by
  decide +kernel

/-- Spec vectors T13.18, T9.1, V49.44, T9.15, T9.12, V49.36, T9.16, V49.41, V49.56, T9.14, V49.47, V49.46. -/
theorem test_fcvt_float_to_int_vectors :
    runs 0x000E .fcvtWS 0x40200000 none 0x3 0x0020 = true ∧
    runs 0x000C .fcvtWS 0x7FC00000 none 0x80000000 0x0001 = true ∧
    runs 0x000C .fcvtLS 0xC0200000 none 0xFFFFFFFFFFFFFFFE 0x0020 = true ∧
    runs 0x000C .fcvtLS 0x5F000000 none 0x8000000000000000 0x0001 = true ∧
    runs 0x000C .fcvtWD 0xC1E0000000100000 none 0x80000000 0x0020 = true ∧
    runs 0x000C .fcvtWD 0x41DFFFFFFFC00000 none 0x7FFFFFFF 0x0000 = true ∧
    runs 0x000C .fcvtLD 0xC3E0000000000000 none 0x8000000000000000 0x0000 = true ∧
    runs 0x000C .fcvtLD 0x43DFFFFFFFFFFFFF none 0x7FFFFFFFFFFFFC00 0x0000 = true ∧
    runs 0x0000 .fcvtWX 0x4000A000000000000000 none 0x2 0x0020 = true ∧
    runs 0x000C .fcvtWX 0x3FFF0000000000000000 none 0x80000000 0x0001 = true ∧
    runs 0x000F .fcvtLX 0x403DFFFFFFFFFFFFFFFF none 0x7FFFFFFFFFFFFFFF 0x0020 = true ∧
    runs 0x000C .fcvtLX 0x403DFFFFFFFFFFFFFFFF none 0x8000000000000000 0x0001 = true := by
  decide +kernel

/-- Spec vectors T13.19, T13.21, V49.54, T9.10, V49.40, V49.53, T9.13, V49.52, V49.48. -/
theorem test_fcvtt_vectors :
    runs 0x000E .fcvttWS 0x40200000 none 0x2 0x0020 = true ∧
    runs 0x000C .fcvttWS 0xC0200000 none 0xFFFFFFFE 0x0020 = true ∧
    runs 0x000C .fcvttLS 0x501502F9 none 0x2540BE400 0x0000 = true ∧
    runs 0x000C .fcvttWD 0x41DFFFFFFFE00000 none 0x7FFFFFFF 0x0020 = true ∧
    runs 0x000C .fcvttWD 0xC1E0000000200000 none 0x80000000 0x0001 = true ∧
    runs 0x000C .fcvttLD 0x7FF0000000000000 none 0x8000000000000000 0x0001 = true ∧
    runs 0x000C .fcvttWX 0x7FFF8000000000000000 none 0x80000000 0x0001 = true ∧
    runs 0x000C .fcvttWX 0x7FFFC000000000000000 none 0x80000000 0x0001 = true ∧
    runs 0x000C .fcvttLX 0x403DFFFFFFFFFFFFFFFF none 0x7FFFFFFFFFFFFFFF 0x0020 = true := by
  decide +kernel

/-- Spec vectors V40.63, V40.9, V40.25, V40.27, V40.37, V40.39. -/
theorem test_fclass_vectors :
    runs 0x002C .fclassS 0x1 none 0x4 0x0000 = true ∧
    runs 0x000C .fclassS 0x800000 none 0x5 0x0000 = true ∧
    runs 0x000C .fclassD 0x8000000000000000 none 0x0 0x0000 = true ∧
    runs 0x000C .fclassD 0xFFFFFFFFFFFFF none 0x4 0x0000 = true ∧
    runs 0x000C .fclassX 0x0 none 0x0 0x0000 = true ∧
    runs 0x000C .fclassX 0x1 none 0x4 0x0000 = true := by
  decide +kernel

/-- Spec vectors V40.2, V40.18, V40.26, V40.34, V40.38, V40.52. -/
theorem test_fsnan_vectors :
    runs 0x000C .fsnanS 0x0 none 0x0 0x0000 = true ∧
    runs 0x000C .fsnanS 0x7F800001 none 0x1 0x0000 = true ∧
    runs 0x000C .fsnanD 0x8000000000000000 none 0x0 0x0000 = true ∧
    runs 0x000C .fsnanD 0x7FF0000000000001 none 0x1 0x0000 = true ∧
    runs 0x000C .fsnanX 0x0 none 0x0 0x0000 = true ∧
    runs 0x000C .fsnanX 0x7FFF8000000000000001 none 0x1 0x0000 = true := by
  decide +kernel

/-! ### States and operands that meet the hypotheses of the statements -/

/-- The Status Context of CTRL = 0x000C, and the same with flush to zero. -/
def ctx (ftz : Bool) : Context := { rm := .nearestEven, prec := .extended, nanMode := .largestSignificand, ftz := ftz }

theorem ready_under (i : Instr) (a b : Word80) : ReadyUnder i (ready a b 0x000C#16) (ctx false) :=
  ⟨show contextOf 0x000C#16 = some (ctx false) by decide +kernel, rfl, fun _ => rfl⟩

theorem ready_under_ftz (i : Instr) (a b : Word80) : ReadyUnder i (ready a b 0x002C#16) (ctx true) :=
  ⟨show contextOf 0x002C#16 = some (ctx true) by decide +kernel, rfl, fun _ => rfl⟩

theorem ready_is_ready (i : Instr) (a b : Word80) : Ready i (ready a b 0x000C#16) := (ready_under i a b).ready

theorem test_witness_StepRunsTheDecodedCommand :
    (pending (ready 0 0 0x000C) [.wr 5 0x0011]).script = .wr 5 0x0011 :: [] ∧
    decode Config.fpe1 ((0x0011 : Word80).setWidth 16) = .ok .faddD ∧ Instr.wf Config.fpe1 .faddD = true :=
  ⟨rfl, rfl, rfl⟩

theorem test_witness_ReservedWordsAreRefused :
    (∀ i : Instr, encode i ≠ 0x0600#16) ∧ (∀ i : Instr, encode i ≠ 0x0001#16) ∧ ∀ i : Instr, encode i ≠ 0xFFFF#16 := by
  refine ⟨?_, ?_, ?_⟩ <;> intro i <;> cases i <;> decide

/-- One transaction for each clause, the least register number that does not exist among them; the two clauses with a
register that must hold a value have it. -/
theorem test_witness_HostAccessesFollowTheRegisterMap :
    (∀ e ∈ [HostEvent.wr 0 1, .wr 1 1, .wr 2 1, .wr 3 1, .wr 4 1, .wr 5 1, .wr 6 1, .rd 0, .rd 1, .rd 2, .rd 3, .rd 4,
      .rd 5, .rd 6, .reset], (pending { ready 1 1 0x000C with resHeld := true } [e]).script = e :: []) ∧
    (pending { ready 1 1 0x000C with resHeld := true } []).script = [] ∧
    (ready 1 1 0x000C).opaHeld = true ∧ (ready 1 1 0x000C).opbHeld = true ∧ 6 ≤ 6 ∧
    (∀ e ∈ [HostEvent.rd 0, .rd 1, .rd 2, .wrRead 0, .wrRead 6], (pending State.reset [e]).script = e :: []) ∧
    State.reset.opaHeld = false ∧ State.reset.opbHeld = false ∧ State.reset.resHeld = false ∧
    State.reset.readings = [] ∧ (pending { State.reset with readings := [⟨2, 9⟩] } [.wrRead 6]).readings = ⟨2, 9⟩ :: [] ∧
    (pending { State.reset with readings := [⟨2, 9⟩] } [.wrRead 6]).script = .wrRead 6 :: [] :=
  ⟨fun _ _ => rfl, rfl, rfl, rfl, Nat.le_refl 6, fun _ _ => rfl, rfl, rfl, rfl, rfl, rfl, rfl⟩

theorem test_witness_UnwrittenRegistersAreRefused :
    (State.reset.ctrl.extractLsb' 2 2 ≠ 1#2 ∧ State.reset.opaHeld = false) ∧
    (let s : State := { State.reset with opaHeld := true }
     s.ctrl.extractLsb' 2 2 ≠ 1#2 ∧ s.opaHeld = true ∧ readsOpb .faddS = true ∧ s.opbHeld = false) ∧
    ((pending State.reset [.rd 2]).script = .rd 2 :: [] ∧ (pending State.reset [.rd 2]).resHeld = false) ∧
    (pending State.reset [.wr 0 7]).script = .wr 0 7 :: [] ∧ (pending State.reset [.wr 1 7]).script = .wr 1 7 :: [] := by
  decide

/-- A misconfigured CTRL, and legal ones that have each code of RM and PC and both values of NANMODE and FTZ. -/
theorem test_witness_ReservedPrecisionRefusesEveryCommand :
    (ready 0 0 0x0004).ctrl.extractLsb' 2 2 = 1#2 ∧
    contextOf 0x0000#16 = some ⟨.nearestEven, .single, .largestSignificand, false⟩ ∧
    contextOf 0x0019#16 = some ⟨.towardNegative, .double, .firstOperand, false⟩ ∧
    contextOf 0x002E#16 = some ⟨.towardPositive, .extended, .largestSignificand, true⟩ ∧
    contextOf 0x003F#16 = some ⟨.towardZero, .extended, .firstOperand, true⟩ := by decide +kernel

theorem test_witness_EveryReadyCommandCompletes :
    Ready .fcmpsX (ready 0 0 0x000C) ∧ ¬ Ready .fsqrtS State.reset ∧ ¬ Ready .faddS (ready 0 0 0x0004) :=
  ⟨ready_is_ready _ _ _, fun h => Bool.noConfusion h.2.1, fun h => h.1 (by decide)⟩

theorem test_witness_EqualInputsGiveEqualResults :
    let s := ready 3 4 0x000C
    let t : State := { s with flags := 0x0021, res := 9 }
    s.opa = t.opa ∧ (readsOpb .fmulD = true → s.opb = t.opb) ∧ s.ctrl = t.ctrl ∧ Ready .fmulD s ∧ Ready .fmulD t :=
  ⟨rfl, fun _ => rfl, rfl, ready_is_ready .fmulD 3 4, ready_is_ready .fmulD 3 4⟩

/-- A one-operand command on two states with different OPB. -/
theorem test_witness_EqualInputsGiveEqualResults_one_operand :
    (readsOpb .fsqrtD = true → (4 : Word80) = 5) ∧ Ready .fsqrtD (ready 3 4 0x000C) ∧
    Ready .fsqrtD (ready 3 5 0x000C) :=
  ⟨fun h => Bool.noConfusion h, ready_is_ready _ _ _, ready_is_ready _ _ _⟩

theorem test_witness_BitsAboveTheOperandAreIgnored :
    let s := ready 0x3F800000 0x40000000 0x000C
    (0xFFFF3F800000 : Word80).setWidth (srcType .faddS).bits = s.opa.setWidth (srcType .faddS).bits ∧
    (readsOpb .faddS = true →
      (0x140000000 : Word80).setWidth (srcType .faddS).bits = s.opb.setWidth (srcType .faddS).bits) ∧ Ready .faddS s ∧
    (readsOpb .frintS = true → (7 : Word80).setWidth (srcType .frintS).bits = s.opb.setWidth (srcType .frintS).bits) ∧
    Ready .frintS s :=
  ⟨by rfl, fun _ => by rfl, ready_is_ready .faddS 0x3F800000 0x40000000, fun h => Bool.noConfusion h,
    ready_is_ready .frintS 0x3F800000 0x40000000⟩

theorem test_witness_ResultsAreZeroExtended : Ready .fcvtWS (ready 0xBF800000 0 0x000C) := ready_is_ready _ _ _

theorem test_witness_FlagsOfOneCommandAreOfSixteenSets : Ready .fdivX (ready 1 2 0x000C) := ready_is_ready _ _ _

theorem test_witness_FlagsAreSticky :
    let s := pending { ready 0 0 0x000C with flags := 0x0021 } [.rd 4]
    (∃ t, step s = .next t) ∧ (∀ v, s.script.head? ≠ some (.wr 4 v)) ∧ s.script.head? ≠ some (.wrRead 4) ∧
    s.script.head? ≠ some .reset :=
  ⟨⟨_, rfl⟩, fun v h => HostEvent.noConfusion (Option.some.inj h), by decide, by decide⟩

/-- A step that changes each of the five registers, FLAGS by a write and by a command. -/
theorem test_witness_RegistersChangeOnlyByTheirOwnWriter :
    (∃ t, step (pending State.reset [.wr 0 1]) = .next t ∧ (t.opa != 0) = true) ∧
    (∃ t, step (pending State.reset [.wr 1 1]) = .next t ∧ (t.opb != 0) = true) ∧
    (∃ t, step (pending State.reset [.wr 3 1]) = .next t ∧ (t.ctrl != 0x000C#16) = true) ∧
    (∃ t, step (pending (ready 0x3F800000 0 0x000C) [.wr 5 0x500F]) = .next t ∧ (t.res != 0) = true) ∧
    (∃ t, step (pending State.reset [.wr 4 1]) = .next t ∧ (t.flags != 0#16) = true) ∧
    (∃ t, step (pending (ready 1 0 0x000C) [.wr 5 0x0000]) = .next t ∧ (t.flags != 0#16) = true) :=
  ⟨exists_of_after (by decide +kernel), exists_of_after (by decide +kernel), exists_of_after (by decide +kernel),
    exists_of_after (by decide +kernel), exists_of_after (by decide +kernel), exists_of_after (by decide +kernel)⟩

theorem test_witness_ReservedBitsStayZero :
    ReservedBitsZero (pending State.reset [.wr 4 0xFFFF]) ∧ ∃ t, step (pending State.reset [.wr 4 0xFFFF]) = .next t :=
  ⟨⟨by decide, by decide⟩, _, rfl⟩

theorem test_witness_ComparisonCodecAndTruncationReadNoControl :
    (Instr.isCmp .fltsX = true ∧ Ready .fltsX (ready 1 2 0x000C)) ∧ (0x0033#16).extractLsb' 2 2 ≠ 1#2 ∧
    Instr.fcvttWS ∈ [Instr.fclassS, .fclassD, .fclassX, .fsnanS, .fsnanD, .fsnanX,
      .fcvttWS, .fcvttLS, .fcvttWD, .fcvttLD, .fcvttWX, .fcvttLX] ∧ Ready .fcvttWS (ready 1 2 0x000C) :=
  ⟨⟨rfl, ready_is_ready _ _ _⟩, by decide, by decide, ready_is_ready _ _ _⟩

theorem test_witness_PrecisionControlIsReadByFiveCommandsOnly :
    Instr.fcvtXD ∉ [Instr.faddX, .fsubX, .fmulX, .fdivX, .fsqrtX] ∧
    0x0000#16 &&& 0xFFF3#16 = (ready 1 2 0x000C).ctrl &&& 0xFFF3#16 ∧ Ready .fcvtXD (ready 1 2 0x000C) ∧
    (0x0000#16).extractLsb' 2 2 ≠ 1#2 :=
  ⟨by decide, by decide, ready_is_ready _ _ _, by decide⟩

theorem test_witness_NanModeIsReadByTwoOperandArithmeticOnly :
    Instr.fsqrtX ∉ [Instr.faddS, .faddD, .faddX, .fsubS, .fsubD, .fsubX, .fmulS, .fmulD, .fmulX, .fdivS, .fdivD,
      .fdivX] ∧
    0x001C#16 &&& 0xFFEF#16 = (ready 1 2 0x000C).ctrl &&& 0xFFEF#16 ∧ Ready .fsqrtX (ready 1 2 0x000C) :=
  ⟨by decide, by decide, ready_is_ready _ _ _⟩

theorem test_witness_MovrCopiesTheResult :
    (pending { ready 0 0 0x000C with resHeld := true } (movr 0)).resHeld = true ∧
    (pending { ready 0 0 0x000C with resHeld := true } (movr 0)).script = movr 0 ++ [] ∧
    (pending { ready 0 0 0x000C with resHeld := true } (movr 1)).script = movr 1 ++ [] :=
  ⟨rfl, rfl, rfl⟩

theorem test_witness_SavedRegistersAreRestored :
    0x003F#16 &&& 0xFFC0#16 = 0#16 ∧ 0x023F#16 &&& 0xFDC0#16 = 0#16 := by decide

/-- The largest packed value of each format, the last byte of an image, and a list of the image's length. -/
theorem test_witness_ByteImageRoundTrips :
    (0xFFFFFFFF : Word80).toNat < 2 ^ fmtBits .S ∧ (0xFFFFFFFFFFFFFFFF : Word80).toNat < 2 ^ fmtBits .D ∧
    (0xFFFFFFFFFFFFFFFFFFFF : Word80).toNat < 2 ^ fmtBits .X ∧ 3 < (toBytes .S 1).length ∧
    ([1, 2, 3, 4] : List (BitVec 8)).length = imageBytes .S := by decide +kernel

theorem test_witness_IsqrtIsTheLargestRoot : 3 * 3 ≤ 15 ∧ isqrt 15 = 3 ∧ isqrt 16 = 4 := by decide +kernel

theorem test_witness_FclassWritesTheClassOfTheBits : Ready .fclassS (ready 1 0 0x000C) ∧
    Ready .fclassD (ready 1 0 0x000C) ∧ Ready .fclassX (ready 1 0 0x000C) :=
  ⟨ready_is_ready _ _ _, ready_is_ready _ _ _, ready_is_ready _ _ _⟩

theorem test_witness_FsnanTellsSignalingNaNs : Ready .fsnanS (ready 1 0 0x000C) ∧
    Ready .fsnanD (ready 1 0 0x000C) ∧ Ready .fsnanX (ready 1 0 0x000C) :=
  ⟨ready_is_ready _ _ _, ready_is_ready _ _ _, ready_is_ready _ _ _⟩

/-- The largest subnormal, the least normal number, a pseudo-denormal and a zero. -/
theorem test_witness_PackUndoesUnpack :
    ((0x007FFFFF : Word80).toNat < 2 ^ fmtBits .S ∧ isDenorm .S 0x007FFFFF = true) ∧
    ((0x00800000 : Word80).toNat < 2 ^ fmtBits .S ∧ classify .S 0x00800000 = .normalized) ∧
    (isDenorm .X 0x8000000000000000 = true ∧ expOf .X 0x8000000000000000 = 0 ∧ jBit 0x8000000000000000 = true) ∧
    isZero .D 0x8000000000000000 = true := by decide +kernel

/-- The least subnormal and the largest finite magnitude of binary32. -/
theorem test_witness_PackFiniteIsExact :
    IsMember .S (precBits .S) ((1 : ℕ) * 2 ^ (-149 : ℤ)) ∧ IsMember .S (precBits .S) ((0xFFFFFF : ℕ) * 2 ^ (104 : ℤ)) := by
  refine ⟨⟨-149, 1, ?_, ?_, ?_, ?_⟩, ⟨127, 0xFFFFFF, ?_, ?_, ?_, ?_⟩⟩ <;> norm_num [emin, emax, bias, precBits]

/-- One NaN on either side, and two with equal significands, under each mode. -/
theorem test_witness_TwoOperandNaNsPropagate :
    ReadyUnder (fsubI .S) (ready 0x7FA00000 0xFFA00000 0x000C) (ctx false) ∧
    ReadyUnder (fsubI .S) (ready 0x7FA00000 0xFFA00000 0x001C) { ctx false with nanMode := .firstOperand } ∧
    unsupported .S 0x7FA00000 = false ∧ isNaN .S 0x7FA00000 = true ∧ isNaN .S 0xFFA00000 = true ∧
    sigOf .S 0x7FA00000 = sigOf .S 0xFFA00000 ∧ isNaN .S 0x3F800000 = false :=
  ⟨ready_under _ _ _, ⟨by decide +kernel, rfl, fun _ => rfl⟩, by decide +kernel⟩

theorem test_witness_OneOperandNaNsAreQuieted :
    Ready (fsqrtI .X) (ready 0x7FFF8000000000000001 0 0x000C) ∧
    unsupported .X (opA .X (ready 0x7FFF8000000000000001 0 0x000C)) = false ∧
    isNaN .X (opA .X (ready 0x7FFF8000000000000001 0 0x000C)) = true :=
  ⟨ready_is_ready _ _ _, by decide +kernel, by decide +kernel⟩

/-- Exponent 1 with a clear integer bit, as each operand. -/
theorem test_witness_UnsupportedOperandsAreInvalid :
    unsupported .X (opA .X (ready 0x00010000000000000000 0 0x000C)) = true ∧
    unsupported .X (opB .X (ready 0 0x00010000000000000000 0x000C)) = true ∧
    Ready (fcmpI true .X) (ready 0 0x00010000000000000000 0x000C) ∧ fcvtFFI .X .S = some .fcvtSX ∧
    Ready .fcvtSX (ready 0x00010000000000000000 0 0x000C) ∧
    Ready (fcvtFII true .X .L) (ready 0x00010000000000000000 0 0x000C) ∧
    Ready (fsqrtI .X) (ready 0x00010000000000000000 0 0x000C) ∧
    Ready (faddI .X) (ready 0x00010000000000000000 0 0x000C) :=
  ⟨by decide +kernel, by decide +kernel, ready_is_ready _ _ _, rfl, ready_is_ready _ _ _, ready_is_ready _ _ _,
    ready_is_ready _ _ _, ready_is_ready _ _ _⟩

/-- Exact and with a sticky bit, at the least quantum that discards a bit. -/
theorem test_witness_RoundAtRoundsTheDescribedValue :
    Describes 5 0 false (5 : ℝ) ∧ Describes 5 0 true (11 / 2 : ℝ) ∧ (true = true → (0 : ℤ) < 1) := by
  refine ⟨?_, ?_, ?_⟩ <;> norm_num [Describes]

/-- A magnitude of binary32 that rounds up to `2^128`. -/
theorem test_witness_RoundPackIsCorrectRounding_overflow :
    let x : ℝ := (2 ^ 25 - 1) * 2 ^ (103 : ℤ)
    Describes (2 ^ 25 - 1) 103 false x ∧ (2 : ℝ) ^ (127 : ℤ) ≤ x ∧ x < 2 ^ ((127 : ℤ) + 1) ∧
    RoundsTo (ctx false).rm false x (127 - ((precBits .S : ℕ) - 1 : ℤ)) (2 ^ 24) ∧
    RoundsTo (ctx false).rm false x (max 127 (emin .S) - ((precBits .S : ℕ) - 1 : ℤ)) (2 ^ 24) ∧ emax .S < 127 + 1 := by
  refine ⟨?_, ?_, ?_, ?_, ?_, ?_⟩ <;> norm_num [Describes, RoundsTo, ctx, emin, emax, bias, precBits]

/-- `2^128` rounded toward zero, which overflows to MaxFinite. -/
theorem test_witness_RoundPackIsCorrectRounding_maxFinite :
    let x : ℝ := 2 ^ (128 : ℤ)
    Describes 1 128 false x ∧ (2 : ℝ) ^ (128 : ℤ) ≤ x ∧ x < 2 ^ ((128 : ℤ) + 1) ∧
    RoundsTo .towardZero false x (128 - ((precBits .S : ℕ) - 1 : ℤ)) (2 ^ 23) ∧
    RoundsTo .towardZero false x (max 128 (emin .S) - ((precBits .S : ℕ) - 1 : ℤ)) (2 ^ 23) ∧ emax .S < 128 := by
  refine ⟨?_, ?_, ?_, ?_, ?_, ?_⟩ <;> norm_num [Describes, RoundsTo, emin, emax, bias, precBits]

/-- A quarter of the least subnormal, which rounds to a zero. -/
theorem test_witness_RoundPackIsCorrectRounding_zero :
    let x : ℝ := 2 ^ (-151 : ℤ)
    Describes 1 (-151) false x ∧ (2 : ℝ) ^ (-151 : ℤ) ≤ x ∧ x < 2 ^ ((-151 : ℤ) + 1) ∧
    RoundsTo (ctx false).rm false x (-151 - ((precBits .S : ℕ) - 1 : ℤ)) (2 ^ 23) ∧
    RoundsTo (ctx false).rm false x (max (-151) (emin .S) - ((precBits .S : ℕ) - 1 : ℤ)) 0 ∧
    -151 ≤ emax .S ∧ (ctx false).ftz = false := by
  refine ⟨?_, ?_, ?_, ?_, ?_, ?_, rfl⟩ <;> norm_num [Describes, RoundsTo, ctx, emin, emax, bias, precBits]

/-- A tiny magnitude just below the least normal number, under flush to zero and not; with a sticky bit. -/
theorem test_witness_RoundPackIsCorrectRounding_tiny :
    let x : ℝ := 2 ^ (-127 : ℤ)
    Describes 1 (-127) false x ∧ (2 : ℝ) ^ (-127 : ℤ) ≤ x ∧ x < 2 ^ ((-127 : ℤ) + 1) ∧
    RoundsTo (ctx true).rm false x (-127 - ((precBits .S : ℕ) - 1 : ℤ)) (2 ^ 23) ∧
    RoundsTo (ctx true).rm false x (max (-127) (emin .S) - ((precBits .S : ℕ) - 1 : ℤ)) (2 ^ 22) ∧ -127 < emin .S ∧
    (ctx true).ftz = true ∧ -127 ≤ emax .S ∧ (ctx false).ftz = false := by
  refine ⟨?_, ?_, ?_, ?_, ?_, ?_, rfl, ?_, rfl⟩ <;> norm_num [Describes, RoundsTo, ctx, emin, emax, bias, precBits]

theorem test_witness_RoundPackIsCorrectRounding_sticky :
    let x : ℝ := 2 ^ 25 + 1 / 2
    Describes (2 ^ 25) 0 true x ∧ precBits .S + 2 ≤ bitlen (2 ^ 25) ∧ (2 : ℝ) ^ (25 : ℤ) ≤ x ∧ x < 2 ^ ((25 : ℤ) + 1) ∧
    RoundsTo (ctx false).rm false x (25 - ((precBits .S : ℕ) - 1 : ℤ)) (2 ^ 23) ∧
    RoundsTo (ctx false).rm false x (max 25 (emin .S) - ((precBits .S : ℕ) - 1 : ℤ)) (2 ^ 23) := by
  refine ⟨?_, by decide +kernel, ?_, ?_, ?_, ?_⟩ <;> norm_num [Describes, RoundsTo, ctx, emin, emax, bias, precBits, abs_lt]

theorem test_witness_RoundPackDependsOnTheValueOnly :
    (Describes 1 0 false (1 : ℝ) ∧ Describes 2 (-1) false (1 : ℝ)) ∧
    (Describes (2 ^ 25) 0 true (2 ^ 25 + 1 / 4 : ℝ) ∧ Describes (2 ^ 26) (-1) true (2 ^ 25 + 1 / 4 : ℝ) ∧
      24 + 2 ≤ bitlen (2 ^ 25) ∧ 24 + 2 ≤ bitlen (2 ^ 26)) := by
  refine ⟨⟨?_, ?_⟩, ?_, ?_, by decide +kernel, by decide +kernel⟩ <;> norm_num [Describes]

/-- The least subnormal of binary32: below `2^emin`, and flushed under flush to zero. -/
theorem test_witness_MembersAreReturnedUnchanged :
    Config.fpe1.underflowNeedsInexact = true ∧ IsMember .S (precBits .S) ((1 : ℕ) * 2 ^ (-149 : ℤ)) ∧
    ((1 : ℕ) : ℚ) * 2 ^ (-149 : ℤ) < 2 ^ emin .S ∧ (ctx true).ftz = true := by
  refine ⟨rfl, ⟨-149, 1, ?_, ?_, ?_, ?_⟩, ?_, rfl⟩ <;> norm_num [emin, emax, bias, precBits]

/-- 1 + 2 and 1 − 2. -/
theorem test_witness_AddAndSubtractRoundTheExactSum :
    (let s := ready 0x3F800000 0x40000000 0x000C
     ReadyUnder (faddI .S) s (ctx false) ∧ isFinite .S (opA .S s) = true ∧ isFinite .S (opB .S s) = true ∧
     ((3 : ℕ) : ℚ) * 2 ^ (0 : ℤ) = |val .S (opA .S s) + signFactor false * val .S (opB .S s)|) ∧
    (let s := ready 0x3F800000 0x40000000 0x000C
     ReadyUnder (fsubI .S) s (ctx false) ∧
     ((1 : ℕ) : ℚ) * 2 ^ (0 : ℤ) = |val .S (opA .S s) + signFactor true * val .S (opB .S s)|) :=
  ⟨⟨ready_under _ _ _, by decide +kernel, by decide +kernel, by decide +kernel⟩, ready_under _ _ _, by decide +kernel⟩

/-- 1 − 1, and (−0) + (−0). -/
theorem test_witness_ZeroSumsTakeTheirSignByMode :
    (let s := ready 0x3F800000 0x3F800000 0x000C
     ReadyUnder (fsubI .S) s (ctx false) ∧ isFinite .S (opA .S s) = true ∧ isFinite .S (opB .S s) = true ∧
     val .S (opA .S s) + signFactor true * val .S (opB .S s) = 0) ∧
    (let s := ready 0x80000000 0x80000000 0x000C
     ReadyUnder (faddI .S) s (ctx false) ∧ val .S (opA .S s) + signFactor false * val .S (opB .S s) = 0) :=
  ⟨⟨ready_under _ _ _, by decide +kernel, by decide +kernel, by decide +kernel⟩, ready_under _ _ _, by decide +kernel⟩

/-- ∞ − ∞, ∞ − 1, 1 − ∞. -/
theorem test_witness_SumsWithAnInfinity :
    Ready (fsubI .S) (ready 0x7F800000 0x7F800000 0x000C) ∧ isInf .S 0x7F800000 = true ∧ isNaN .S 0x7F800000 = false ∧
    signOf .S 0x7F800000 ≠ (signOf .S 0x7F800000 ^^ true) ∧ Ready (fsubI .S) (ready 0x7F800000 0x3F800000 0x000C) ∧
    Ready (fsubI .S) (ready 0x3F800000 0x7F800000 0x000C) ∧ isInf .S 0x3F800000 = false ∧ isNaN .S 0x3F800000 = false :=
  ⟨ready_is_ready _ _ _, by decide +kernel, by decide +kernel, by decide +kernel, ready_is_ready _ _ _,
    ready_is_ready _ _ _, by decide +kernel, by decide +kernel⟩

theorem test_witness_AdditionCommutes :
    Ready (faddI .D) (ready 1 2 0x000C) ∧ isNaN .D (opA .D (ready 1 2 0x000C)) = false ∧
    isNaN .D (opB .D (ready 1 2 0x000C)) = false :=
  ⟨ready_is_ready _ _ _, by decide +kernel, by decide +kernel⟩

theorem test_witness_SubtractingAValueFromItself :
    ReadyUnder (fsubI .S) (ready 1 0x100000001 0x000C) (ctx false) ∧
    opA .S (ready 1 0x100000001 0x000C) = opB .S (ready 1 0x100000001 0x000C) ∧ isFinite .S 1 = true ∧
    ReadyUnder (fsubI .S) (ready 0x7F800000 0x7F800000 0x000C) (ctx false) ∧ isInf .S 0x7F800000 = true :=
  ⟨ready_under _ _ _, by decide +kernel, by decide +kernel, ready_under _ _ _, by decide +kernel⟩

/-- (−1) × 3. -/
theorem test_witness_MultiplyRoundsTheExactProduct :
    let s := ready 0xBF800000 0x40400000 0x000C
    ReadyUnder (fmulI .S) s (ctx false) ∧ isFinite .S (opA .S s) = true ∧ isFinite .S (opB .S s) = true ∧
    isZero .S (opA .S s) = false ∧ isZero .S (opB .S s) = false ∧
    ((3 : ℕ) : ℚ) * 2 ^ (0 : ℤ) = |val .S (opA .S s) * val .S (opB .S s)| :=
  ⟨ready_under _ _ _, by decide +kernel, by decide +kernel, by decide +kernel, by decide +kernel, by decide +kernel⟩

/-- 0 and ∞, 0 and 1, ∞ and 1, in the formats' own patterns: the cells of the tables of products and quotients. -/
theorem test_witness_ProductsWithZeroOrInfinity :
    Ready (fmulI .S) (ready 0 0x7F800000 0x000C) ∧ isZero .S 0 = true ∧ isInf .S 0 = false ∧
    isInf .S 0x7F800000 = true ∧ isZero .S 0x7F800000 = false ∧ isZero .S 0x3F800000 = false ∧
    isInf .S 0x3F800000 = false ∧ isNaN .S 0 = false ∧ isNaN .S 0x7F800000 = false ∧ isNaN .S 0x3F800000 = false :=
  ⟨ready_is_ready _ _ _, by decide +kernel⟩

theorem test_witness_MultiplicationCommutes :
    Ready (fmulI .X) (ready 1 2 0x000C) ∧ isNaN .X (opA .X (ready 1 2 0x000C)) = false ∧
    isNaN .X (opB .X (ready 1 2 0x000C)) = false :=
  ⟨ready_is_ready _ _ _, by decide +kernel, by decide +kernel⟩

/-- 1 / 3, truncated to 26 bits with a sticky bit, and 1 / 1. -/
theorem test_witness_DivideRoundsTheExactQuotient :
    (let s := ready 0x3F800000 0x40400000 0x000C
     ReadyUnder (fdivI .S) s (ctx false) ∧ isFinite .S (opA .S s) = true ∧ isFinite .S (opB .S s) = true ∧
     isZero .S (opA .S s) = false ∧ isZero .S (opB .S s) = false ∧
     Describes 44739242 (-27) true ((|val .S (opA .S s) / val .S (opB .S s)| : ℚ) : ℝ) ∧
     arithPrec (ctx false) .S + 2 ≤ bitlen 44739242) ∧
    Describes 1 0 false ((|val .S 0x3F800000 / val .S 0x3F800000| : ℚ) : ℝ) := by
  refine ⟨⟨ready_under _ _ _, by decide +kernel, by decide +kernel, by decide +kernel, by decide +kernel, ?_,
    by decide +kernel⟩, ?_⟩
  · rw [show |val .S (opA .S (ready 0x3F800000 0x40400000 0x000C)) / val .S (opB .S (ready 0x3F800000 0x40400000 0x000C))|
      = 1 / 3 by decide +kernel]
    norm_num [Describes]
  · rw [show |val .S 0x3F800000 / val .S 0x3F800000| = 1 by decide +kernel]
    norm_num [Describes]

theorem test_witness_QuotientsWithZeroOrInfinity :
    Ready (fdivI .S) (ready 0x3F800000 0 0x000C) ∧ isFinite .S 0x3F800000 = true ∧ isZero .S 0x3F800000 = false ∧
    isZero .S 0 = true ∧ isInf .S 0 = false ∧ isInf .S 0x7F800000 = true ∧ isInf .S 0x3F800000 = false ∧
    isNaN .S 0 = false ∧ isNaN .S 0x7F800000 = false ∧ isNaN .S 0x3F800000 = false :=
  ⟨ready_is_ready _ _ _, by decide +kernel⟩

theorem test_witness_AValueDividedByItselfIsOne :
    Ready (fdivI .S) (ready 1 1 0x000C) ∧ opA .S (ready 1 1 0x000C) = opB .S (ready 1 1 0x000C) ∧
    isDenorm .S (opA .S (ready 1 1 0x000C)) = true ∧
    classify .S (opA .S (ready 0x00800000 0x00800000 0x000C)) = .normalized :=
  ⟨ready_is_ready _ _ _, by decide +kernel, by decide +kernel, by decide +kernel⟩

/-- √4, and √2 truncated to 26 bits with a sticky bit. -/
theorem test_witness_SquareRootRoundsTheExactRoot :
    (let s := ready 0x40800000 0 0x000C
     ReadyUnder (fsqrtI .S) s (ctx false) ∧ isFinite .S (opA .S s) = true ∧ isZero .S (opA .S s) = false ∧
     signOf .S (opA .S s) = false ∧ Describes 2 0 false (Real.sqrt ((val .S (opA .S s) : ℚ) : ℝ))) ∧
    Describes 47453132 (-25) true (Real.sqrt ((val .S 0x40000000 : ℚ) : ℝ)) ∧
    arithPrec (ctx false) .S + 2 ≤ bitlen 47453132 := by
  refine ⟨⟨ready_under _ _ _, by decide +kernel, by decide +kernel, by decide +kernel, ?_⟩, ?_, by decide +kernel⟩
  · rw [show val .S (opA .S (ready 0x40800000 0 0x000C)) = 2 ^ 2 by decide +kernel]
    norm_num [Describes]
  · rw [show val .S 0x40000000 = 2 by decide +kernel]
    simp only [Describes, if_true]
    constructor
    · rw [Real.lt_sqrt (by positivity)]
      norm_num
    · rw [Real.sqrt_lt' (by positivity)]
      norm_num

theorem test_witness_SquareRootSpecialCases :
    Ready (fsqrtI .S) (ready 0x80000000 0 0x000C) ∧ isZero .S 0x80000000 = true ∧ isNaN .S 0x80000000 = false ∧
    classify .S 0x7F800000 = .posInfinity ∧ signOf .S 0x80000001 = true ∧ isZero .S 0x80000001 = false ∧
    isNaN .S 0x80000001 = false :=
  ⟨ready_is_ready _ _ _, by decide +kernel⟩

theorem test_witness_SquareRootStaysInRange : Ready (fsqrtI .X) (ready 1 0 0x000C) := ready_is_ready _ _ _

/-- 2.5 rounds to 2; an infinity. -/
theorem test_witness_RoundToIntegerDeliversTheInteger :
    (let s := ready 0x40200000 0 0x000C
     ReadyUnder (frintI .S) s (ctx false) ∧ isFinite .S (opA .S s) = true ∧
     RoundsTo (ctx false).rm (signOf .S (opA .S s)) ((|val .S (opA .S s)| : ℚ) : ℝ) 0 2) ∧
    isInf .S (opA .S (ready 0x7F800000 0 0x000C)) = true := by
  refine ⟨⟨ready_under _ _ _, by decide +kernel, ?_⟩, by decide +kernel⟩
  rw [show |val .S (opA .S (ready 0x40200000 0 0x000C))| = 5 / 2 by decide +kernel]
  norm_num [RoundsTo, ctx]

theorem test_witness_ComparisonsFollowTheRelation : Ready (fcmpI true .X) (ready 1 2 0x000C) := ready_is_ready _ _ _

theorem test_witness_ComparisonsAreConsistent : Ready (fcmpI false .D) (ready 1 2 0x000C) := ready_is_ready _ _ _

/-- The least subnormal of binary64, a zero and an infinity, to binary32. -/
theorem test_witness_FloatConversionsRoundTheExactValue :
    fcvtFFI .D .S = some .fcvtSD ∧ ReadyUnder .fcvtSD (ready 1 0 0x000C) (ctx false) ∧
    (let s := ready 1 0 0x000C
     isFinite .D (opA .D s) = true ∧ isZero .D (opA .D s) = false ∧
     ((1 : ℕ) : ℚ) * 2 ^ (-1074 : ℤ) = |val .D (opA .D s)|) ∧
    isZero .D 0x8000000000000000 = true ∧ isInf .D 0xFFF0000000000000 = true :=
  ⟨rfl, ready_under _ _ _, ⟨by decide +kernel, by decide +kernel, by decide +kernel⟩, by decide +kernel, by decide +kernel⟩

theorem test_witness_WideningConversionsAreExact :
    fmtBits .D < fmtBits .X ∧ fcvtFFI .D .X = some .fcvtXD ∧ Ready .fcvtXD (ready 1 0 0x000C) ∧
    isFinite .D (opA .D (ready 1 0 0x000C)) = true :=
  ⟨by decide, rfl, ready_is_ready _ _ _, by decide +kernel⟩

theorem test_witness_ConvertedNaNsKeepSignAndPayload :
    let s := ready 0x7FFF8000000000000001 0 0x000C
    fcvtFFI .X .S = some .fcvtSX ∧ Ready .fcvtSX s ∧ unsupported .X (opA .X s) = false ∧ isNaN .X (opA .X s) = true :=
  ⟨rfl, ready_is_ready _ _ _, by decide +kernel, by decide +kernel⟩

/-- A subnormal with flush to zero and without, a signaling NaN, and a normal number. -/
theorem test_witness_WideningAndBackIsTheIdentity :
    fmtBits .S < fmtBits .X ∧ fcvtFFI .S .X = some .fcvtXS ∧ fcvtFFI .X .S = some .fcvtSX ∧
    (ReadyUnder .fcvtXS (ready 1 0 0x002C) (ctx true) ∧ isDenorm .S (opA .S (ready 1 0 0x002C)) = true) ∧
    (ReadyUnder .fcvtXS (ready 1 0 0x000C) (ctx false) ∧ isDenorm .S (opA .S (ready 1 0 0x000C)) = true) ∧
    (ReadyUnder .fcvtXS (ready 0x7FA00000 0 0x000C) (ctx false) ∧ isSNaN .S (opA .S (ready 0x7FA00000 0 0x000C)) = true) ∧
    ReadyUnder .fcvtXS (ready 0x40490FDB 0 0x000C) (ctx false) ∧
    classify .S (opA .S (ready 0x40490FDB 0 0x000C)) = .normalized :=
  ⟨by decide, rfl, rfl, ⟨ready_under_ftz _ _ _, by decide +kernel⟩, ⟨ready_under _ _ _, by decide +kernel⟩,
    ⟨ready_under _ _ _, by decide +kernel⟩, ready_under _ _ _, by decide +kernel⟩

/-- 0, and the most negative integer of 32 bits. -/
theorem test_witness_IntegersConvertByOneRounding :
    ReadyUnder (fcvtIFI .W .S) (ready 0 0 0x000C) (ctx false) ∧ ((0 : Word80).setWidth (intBits .W)).toInt = 0 ∧
    ((0x80000000 : Word80).setWidth (intBits .W)).toInt ≠ 0 ∧
    ((1 : ℕ) : ℚ) * 2 ^ (31 : ℤ) = |((((0x80000000 : Word80).setWidth (intBits .W)).toInt : ℤ) : ℚ)| ∧
    intBits .L ≤ precBits .X :=
  ⟨ready_under _ _ _, by decide +kernel, by decide +kernel, by decide +kernel, by decide⟩

/-- −2.5, which truncates to −2; 2^31, out of range; and an infinity. -/
theorem test_witness_FloatToIntegerRoundsOrIsInvalid :
    (let s := ready 0xC0200000 0 0x000C
     ReadyUnder (fcvtFII true .S .W) s (ctx false) ∧ isFinite .S (opA .S s) = true ∧
     RoundsTo .towardZero (signOf .S (opA .S s)) ((|val .S (opA .S s)| : ℚ) : ℝ) 0 2) ∧
    (let s := ready 0x4F000000 0 0x000C
     ReadyUnder (fcvtFII false .S .W) s (ctx false) ∧ isFinite .S (opA .S s) = true ∧
     RoundsTo (ctx false).rm (signOf .S (opA .S s)) ((|val .S (opA .S s)| : ℚ) : ℝ) 0 (2 ^ 31)) ∧
    isFinite .S (opA .S (ready 0x7F800000 0 0x000C)) = false := by
  refine ⟨⟨ready_under _ _ _, by decide +kernel, ?_⟩, ⟨ready_under _ _ _, by decide +kernel, ?_⟩, by decide +kernel⟩
  · rw [show |val .S (opA .S (ready 0xC0200000 0 0x000C))| = 5 / 2 by decide +kernel]
    norm_num [RoundsTo]
  · rw [show |val .S (opA .S (ready 0x4F000000 0 0x000C))| = 2 ^ 31 by decide +kernel]
    norm_num [RoundsTo, ctx]

end Sys2Proof.Tests
end

section
/-! PROOFS. The integer square root of 00_scope.md R6 lies between the two squares that enclose its argument. -/

namespace Sys2Proof.Machine

/-- The digit-by-digit recursion: the root of `n / 4`, doubled, and one more where the square still fits. -/
theorem isqrtRounds_succ (rounds n : Nat) :
    isqrtRounds (rounds + 1) n =
      if (2 * isqrtRounds rounds (n / 4) + 1) * (2 * isqrtRounds rounds (n / 4) + 1) ≤ n
      then 2 * isqrtRounds rounds (n / 4) + 1 else 2 * isqrtRounds rounds (n / 4) := rfl

/-- However few the rounds, the root found is never too large. -/
theorem isqrtRounds_sq_le (rounds n : Nat) : isqrtRounds rounds n * isqrtRounds rounds n ≤ n := by
  induction rounds generalizing n with
  | zero => exact Nat.zero_le n
  | succ rounds ih =>
    rw [isqrtRounds_succ]
    split
    case isTrue hfits => exact hfits
    case isFalse =>
      have hquarter := ih (n / 4)
      calc 2 * isqrtRounds rounds (n / 4) * (2 * isqrtRounds rounds (n / 4))
          = 4 * (isqrtRounds rounds (n / 4) * isqrtRounds rounds (n / 4)) := by ring
        _ ≤ n := by omega

/-- With a round for every base-4 digit of `n`, the root found is not too small: the next square exceeds `n`. -/
theorem lt_isqrtRounds_succ_sq {rounds n : Nat} (h : n < 4 ^ rounds) :
    n < (isqrtRounds rounds n + 1) * (isqrtRounds rounds n + 1) := by
  induction rounds generalizing n with
  | zero => simpa [isqrtRounds] using h
  | succ rounds ih =>
    have hquarter := ih (n := n / 4) (by omega)
    rw [isqrtRounds_succ]
    split
    case isTrue =>
      calc n < 4 * ((isqrtRounds rounds (n / 4) + 1) * (isqrtRounds rounds (n / 4) + 1)) := by omega
        _ = (2 * isqrtRounds rounds (n / 4) + 1 + 1) * (2 * isqrtRounds rounds (n / 4) + 1 + 1) := by ring
    case isFalse hexceeds => exact Nat.lt_of_not_le hexceeds

theorem isqrt_sq_le (n : Nat) : isqrt n * isqrt n ≤ n := isqrtRounds_sq_le (bitlen n) n

/-- The bit length of `n` gives rounds enough, since `n < 2 ^ bitlen n ≤ 4 ^ bitlen n`. -/
theorem lt_isqrt_succ_sq (n : Nat) : n < (isqrt n + 1) * (isqrt n + 1) :=
  lt_isqrtRounds_succ_sq <| calc
    n < 2 ^ bitlen n := lt_two_pow_bitlen n
    _ ≤ 4 ^ bitlen n := Nat.pow_le_pow_left (by decide) (bitlen n)

/-- Settles O26: a root above `isqrt n` would have a square of at least `(isqrt n + 1) ^ 2`, which exceeds `n`. -/
theorem isqrtIsTheLargestRoot : Obligations.IsqrtIsTheLargestRoot := by
  intro n
  refine ⟨isqrt_sq_le n, fun r hr => ?_⟩
  have hlt : r < isqrt n + 1 := Nat.mul_self_lt_mul_self_iff.mp (hr.trans_lt (lt_isqrt_succ_sq n))
  exact Nat.le_of_lt_succ hlt

end Sys2Proof.Machine
end

section
/-! PROOFS. Each command as a pure function of the Status Context and the two operand registers (00_scope.md R8), by
family; what a ready command and a refused one answer. -/

namespace Sys2Proof.Machine

/-- `Computes i src dst two op`: command `i`, with operands of type `src` (two of them iff `two`) and a result of type
`dst`, computes `op`. One constructor per family of 30_encoding.md R45 to R51, so that a fact about every command is a
fact about sixteen families. -/
inductive Computes : Instr → OpType → OpType → Bool → (Context → Word80 → Word80 → Result) → Prop
  | fadd (f : Fmt) : Computes (faddI f) (.flt f) (.flt f) true (faddOp f)
  | fsub (f : Fmt) : Computes (fsubI f) (.flt f) (.flt f) true (fsubOp f)
  | fmul (f : Fmt) : Computes (fmulI f) (.flt f) (.flt f) true (fmulOp f)
  | fdiv (f : Fmt) : Computes (fdivI f) (.flt f) (.flt f) true (fdivOp f)
  | fsqrt (f : Fmt) : Computes (fsqrtI f) (.flt f) (.flt f) false (fun c a _ => fsqrtOp f c a)
  | frint (f : Fmt) : Computes (frintI f) (.flt f) (.flt f) false (fun c a _ => frintOp f c a)
  | feq (sg : Bool) (f : Fmt) : Computes (feqI sg f) (.flt f) .code true (fun _ => predicateOp Relation.isEq sg f)
  | flt (sg : Bool) (f : Fmt) : Computes (fltI sg f) (.flt f) .code true (fun _ => predicateOp Relation.isLt sg f)
  | fle (sg : Bool) (f : Fmt) : Computes (fleI sg f) (.flt f) .code true (fun _ => predicateOp Relation.isLe sg f)
  | funord (sg : Bool) (f : Fmt) : Computes (funI sg f) (.flt f) .code true (fun _ => predicateOp Relation.isUn sg f)
  | fcmp (sg : Bool) (f : Fmt) : Computes (fcmpI sg f) (.flt f) .code true (fun _ => orderingOp sg f)
  | fcvtFF {src dst : Fmt} {i : Instr} (h : fcvtFFI src dst = some i) :
      Computes i (.flt src) (.flt dst) false (fun c a _ => fcvtFFOp src dst c a)
  | fcvtIF (t : IntTy) (dst : Fmt) :
      Computes (fcvtIFI t dst) (.int t) (.flt dst) false (fun c a _ => fcvtIFOp t dst c a)
  | fcvtFI (trunc : Bool) (src : Fmt) (t : IntTy) :
      Computes (fcvtFII trunc src t) (.flt src) (.int t) false (fun c a _ => fcvtFIOp trunc src t c a)
  | fclass (f : Fmt) : Computes (fclassI f) (.flt f) .code false (fun _ a _ => classResult f (fltOperand f a))
  | fsnan (f : Fmt) : Computes (fsnanI f) (.flt f) .code false (fun _ a _ => snanResult f (fltOperand f a))

/-- Every command belongs to a family, with the types of its row in 30_encoding.md R59. -/
theorem exists_computes (i : Instr) : ∃ op, Computes i (srcType i) (dstType i) (readsOpb i) op :=
  match i with
  | .faddS => ⟨_, .fadd .S⟩ | .faddD => ⟨_, .fadd .D⟩ | .faddX => ⟨_, .fadd .X⟩
  | .fsubS => ⟨_, .fsub .S⟩ | .fsubD => ⟨_, .fsub .D⟩ | .fsubX => ⟨_, .fsub .X⟩
  | .fmulS => ⟨_, .fmul .S⟩ | .fmulD => ⟨_, .fmul .D⟩ | .fmulX => ⟨_, .fmul .X⟩
  | .fdivS => ⟨_, .fdiv .S⟩ | .fdivD => ⟨_, .fdiv .D⟩ | .fdivX => ⟨_, .fdiv .X⟩
  | .fsqrtS => ⟨_, .fsqrt .S⟩ | .fsqrtD => ⟨_, .fsqrt .D⟩ | .fsqrtX => ⟨_, .fsqrt .X⟩
  | .frintS => ⟨_, .frint .S⟩ | .frintD => ⟨_, .frint .D⟩ | .frintX => ⟨_, .frint .X⟩
  | .feqS => ⟨_, .feq false .S⟩ | .feqD => ⟨_, .feq false .D⟩ | .feqX => ⟨_, .feq false .X⟩
  | .fltS => ⟨_, .flt false .S⟩ | .fltD => ⟨_, .flt false .D⟩ | .fltX => ⟨_, .flt false .X⟩
  | .fleS => ⟨_, .fle false .S⟩ | .fleD => ⟨_, .fle false .D⟩ | .fleX => ⟨_, .fle false .X⟩
  | .funS => ⟨_, .funord false .S⟩ | .funD => ⟨_, .funord false .D⟩ | .funX => ⟨_, .funord false .X⟩
  | .feqsS => ⟨_, .feq true .S⟩ | .feqsD => ⟨_, .feq true .D⟩ | .feqsX => ⟨_, .feq true .X⟩
  | .fltsS => ⟨_, .flt true .S⟩ | .fltsD => ⟨_, .flt true .D⟩ | .fltsX => ⟨_, .flt true .X⟩
  | .flesS => ⟨_, .fle true .S⟩ | .flesD => ⟨_, .fle true .D⟩ | .flesX => ⟨_, .fle true .X⟩
  | .funsS => ⟨_, .funord true .S⟩ | .funsD => ⟨_, .funord true .D⟩ | .funsX => ⟨_, .funord true .X⟩
  | .fcmpS => ⟨_, .fcmp false .S⟩ | .fcmpD => ⟨_, .fcmp false .D⟩ | .fcmpX => ⟨_, .fcmp false .X⟩
  | .fcmpsS => ⟨_, .fcmp true .S⟩ | .fcmpsD => ⟨_, .fcmp true .D⟩ | .fcmpsX => ⟨_, .fcmp true .X⟩
  | .fcvtDS => ⟨_, .fcvtFF (src := .S) (dst := .D) rfl⟩ | .fcvtXS => ⟨_, .fcvtFF (src := .S) (dst := .X) rfl⟩
  | .fcvtSD => ⟨_, .fcvtFF (src := .D) (dst := .S) rfl⟩ | .fcvtXD => ⟨_, .fcvtFF (src := .D) (dst := .X) rfl⟩
  | .fcvtSX => ⟨_, .fcvtFF (src := .X) (dst := .S) rfl⟩ | .fcvtDX => ⟨_, .fcvtFF (src := .X) (dst := .D) rfl⟩
  | .fcvtSW => ⟨_, .fcvtIF .W .S⟩ | .fcvtDW => ⟨_, .fcvtIF .W .D⟩ | .fcvtXW => ⟨_, .fcvtIF .W .X⟩
  | .fcvtSL => ⟨_, .fcvtIF .L .S⟩ | .fcvtDL => ⟨_, .fcvtIF .L .D⟩ | .fcvtXL => ⟨_, .fcvtIF .L .X⟩
  | .fcvtWS => ⟨_, .fcvtFI false .S .W⟩ | .fcvtWD => ⟨_, .fcvtFI false .D .W⟩ | .fcvtWX => ⟨_, .fcvtFI false .X .W⟩
  | .fcvtLS => ⟨_, .fcvtFI false .S .L⟩ | .fcvtLD => ⟨_, .fcvtFI false .D .L⟩ | .fcvtLX => ⟨_, .fcvtFI false .X .L⟩
  | .fcvttWS => ⟨_, .fcvtFI true .S .W⟩ | .fcvttWD => ⟨_, .fcvtFI true .D .W⟩ | .fcvttWX => ⟨_, .fcvtFI true .X .W⟩
  | .fcvttLS => ⟨_, .fcvtFI true .S .L⟩ | .fcvttLD => ⟨_, .fcvtFI true .D .L⟩ | .fcvttLX => ⟨_, .fcvtFI true .X .L⟩
  | .fclassS => ⟨_, .fclass .S⟩ | .fclassD => ⟨_, .fclass .D⟩ | .fclassX => ⟨_, .fclass .X⟩
  | .fsnanS => ⟨_, .fsnan .S⟩ | .fsnanD => ⟨_, .fsnan .D⟩ | .fsnanX => ⟨_, .fsnan .X⟩

section
variable {i : Instr} {src dst : OpType} {two : Bool} {op : Context → Word80 → Word80 → Result}
  {s t : State} {c c' : Context}

/-- A command that may run completes with what its family computes from CTRL, OPA and OPB. -/
theorem Computes.completes (h : Computes i src dst two op) (hr : ReadyUnder i s c) :
    Completes i s (op c s.opa s.opb) := by
  obtain ⟨hc, ha, hb⟩ := hr
  cases h with
  | fadd f | fsub f | fmul f | fdiv f => cases f <;> exact command2_of_context hc ha (hb rfl)
  | feq sg f | flt sg f | fle sg f | funord sg f | fcmp sg f =>
    cases sg <;> cases f <;> exact command2_of_context hc ha (hb rfl)
  | fsqrt f | frint f => cases f <;> exact command1_of_context hc ha
  | fclass f => cases f <;> exact command1_of_context (op := fun _ a => classResult _ (fltOperand _ a)) hc ha
  | fsnan f => cases f <;> exact command1_of_context (op := fun _ a => snanResult _ (fltOperand _ a)) hc ha
  | @fcvtFF src dst _ hi => cases src <;> cases dst <;> cases hi <;> exact command1_of_context hc ha
  | fcvtIF t dst => cases t <;> cases dst <;> exact command1_of_context hc ha
  | fcvtFI trunc src t => cases trunc <;> cases t <;> cases src <;> exact command1_of_context hc ha

/-- Two states on which the command computes the same result complete with the same result. -/
theorem Computes.completes_alike (h : Computes i src dst two op) (hs : ReadyUnder i s c) (ht : ReadyUnder i t c')
    (hop : op c s.opa s.opb = op c' t.opa t.opb) : ∃ r : Result, Completes i s r ∧ Completes i t r :=
  ⟨op c s.opa s.opb, h.completes hs, hop ▸ h.completes ht⟩

end

/-! ### Refusals of a command -/

theorem contextOf_eq_none_iff (ctrl : Word16) : contextOf ctrl = none ↔ ctrl.extractLsb' 2 2 = 1#2 := by
  rw [← precisionOf_eq_none_iff, contextOf]
  cases precisionOf ctrl <;> simp

theorem exists_contextOf {ctrl : Word16} (h : ctrl.extractLsb' 2 2 ≠ 1#2) : ∃ c, contextOf ctrl = some c :=
  Option.ne_none_iff_exists'.mp (mt (contextOf_eq_none_iff ctrl).mp h)

theorem exec_of_no_context {s : State} (i : Instr) (hc : contextOf s.ctrl = none) :
    exec i s = .refused .reservedPrecision := by
  cases h2 : readsOpb i with
  | false => obtain ⟨op, hop⟩ := exec_eq_command1 h2; simp [hop, command1, hc]
  | true => obtain ⟨op, hop⟩ := exec_eq_command2 h2; simp [hop, command2, hc]

theorem exec_of_opa_unwritten {s : State} {c : Context} (i : Instr) (hc : contextOf s.ctrl = some c)
    (ha : s.opaHeld = false) : exec i s = .refused .opaUnwritten := by
  cases h2 : readsOpb i with
  | false => obtain ⟨op, hop⟩ := exec_eq_command1 h2; simp [hop, command1, hc, ha]
  | true => obtain ⟨op, hop⟩ := exec_eq_command2 h2; simp [hop, command2, hc, ha]

theorem exec_of_opb_unwritten {i : Instr} {s : State} {c : Context} (h2 : readsOpb i = true)
    (hc : contextOf s.ctrl = some c) (ha : s.opaHeld = true) (hb : s.opbHeld = false) :
    exec i s = .refused .opbUnwritten := by
  obtain ⟨op, hop⟩ := exec_eq_command2 h2
  simp [hop, command2, hc, ha, hb]

/-- Everything a command can do: it is refused, or it was ready and completes with the result of its family. -/
theorem exec_cases (i : Instr) (s : State) :
    (∃ why, exec i s = .refused why) ∨
    ∃ c op, ReadyUnder i s c ∧ Computes i (srcType i) (dstType i) (readsOpb i) op ∧
      exec i s = .next (complete s (op c s.opa s.opb)) := by
  cases hc : contextOf s.ctrl with
  | none => exact .inl ⟨_, exec_of_no_context i hc⟩
  | some c =>
    cases ha : s.opaHeld with
    | false => exact .inl ⟨_, exec_of_opa_unwritten i hc ha⟩
    | true =>
      by_cases hb : readsOpb i = true → s.opbHeld = true
      · obtain ⟨op, hop⟩ := exists_computes i
        exact .inr ⟨c, op, ⟨hc, ha, hb⟩, hop, hop.completes ⟨hc, ha, hb⟩⟩
      · rw [Classical.not_imp, Bool.not_eq_true] at hb
        exact .inl ⟨_, exec_of_opb_unwritten hb.1 hc ha hb.2⟩

end Sys2Proof.Machine
end

section
/-! PROOFS. The operands a command sees: the bits of OPA and OPB at the width of its operand type (10_state.md R14). -/

namespace Sys2Proof.Machine

theorem fltOperand_congr {f : Fmt} {a a' : Word80} (h : a.setWidth (fmtBits f) = a'.setWidth (fmtBits f)) :
    fltOperand f a = fltOperand f a' := congrArg (BitVec.setWidth 80) h

theorem intOperand_congr {t : IntTy} {a a' : Word80} (h : a.setWidth (intBits t) = a'.setWidth (intBits t)) :
    intOperand t a = intOperand t a' := congrArg BitVec.toInt h

/-- A command's result depends on the low bits of OPA, and on those of OPB for a two-operand command. -/
theorem Computes.op_congr {i : Instr} {src dst : OpType} {two : Bool} {op : Context → Word80 → Word80 → Result}
    (h : Computes i src dst two op) (c : Context) {a a' b b' : Word80}
    (ha : a.setWidth src.bits = a'.setWidth src.bits)
    (hb : two = true → b.setWidth src.bits = b'.setWidth src.bits) : op c a b = op c a' b' := by
  cases h with
  | fadd f => simp only [faddOp, fltOperand_congr ha, fltOperand_congr (hb rfl)]
  | fsub f => simp only [fsubOp, fltOperand_congr ha, fltOperand_congr (hb rfl)]
  | fmul f => simp only [fmulOp, fltOperand_congr ha, fltOperand_congr (hb rfl)]
  | fdiv f => simp only [fdivOp, fltOperand_congr ha, fltOperand_congr (hb rfl)]
  | feq | flt | fle | funord => simp only [predicateOp, fltOperand_congr ha, fltOperand_congr (hb rfl)]
  | fcmp => simp only [orderingOp, fltOperand_congr ha, fltOperand_congr (hb rfl)]
  | fsqrt => simp only [fsqrtOp, fltOperand_congr ha]
  | frint => simp only [frintOp, fltOperand_congr ha]
  | fcvtFF => simp only [fcvtFFOp, fltOperand_congr ha]
  | fcvtIF => simp only [fcvtIFOp, intOperand_congr ha]
  | fcvtFI => simp only [fcvtFIOp, fltOperand_congr ha]
  | fclass | fsnan => simp only [fltOperand_congr ha]

/-- Settles O12: the two states give the command the same operands. -/
theorem bitsAboveTheOperandAreIgnored : Obligations.BitsAboveTheOperandAreIgnored := by
  intro i s a b ha hb hready
  obtain ⟨c, hr⟩ := hready.exists_context
  obtain ⟨op, hop⟩ := exists_computes i
  have hr' : ReadyUnder i { s with opa := a, opb := b } c := hr
  exact hop.completes_alike hr hr' (hop.op_congr c ha.symm fun h2 => (hb h2).symm)

/-- Settles O11: equal CTRL gives one Status Context, and the command reads nothing else than its operands. -/
theorem equalInputsGiveEqualResults : Obligations.EqualInputsGiveEqualResults := by
  intro i s t hopa hopb hctrl hs ht
  obtain ⟨c, hr⟩ := hs.exists_context
  obtain ⟨op, hop⟩ := exists_computes i
  have hr' : ReadyUnder i t c := ⟨hctrl ▸ hr.1, ht.2⟩
  exact hop.completes_alike hr hr' (hop.op_congr c (by rw [hopa]) fun h2 => by rw [hopb h2])

end Sys2Proof.Machine
end

section
/-! PROOFS. The result of every command fits its result type (10_state.md R14), and the flags it adds lie among the bits
of FLAGS that exist (R19). -/

namespace Sys2Proof.Machine

/-- No reserved bit of FLAGS is set (10_state.md R19). -/
def FlagsDefined (w : Word16) : Prop := w &&& 0xFDC0#16 = 0#16

/-- The value of a result lies in the low `n` bits, and its flags are bits of FLAGS that exist. -/
structure Result.Fits (r : Result) (n : Nat) : Prop where
  value_lt : r.value.toNat < 2 ^ n
  flagsDefined : FlagsDefined r.flags

/-! ### Flags -/

theorem flagsDefined_zero : FlagsDefined 0#16 := BitVec.zero_and

theorem flagsDefined_bit (fl : Flag) : FlagsDefined fl.bit := by cases fl <;> rfl

theorem FlagsDefined.or {v w : Word16} (hv : FlagsDefined v) (hw : FlagsDefined w) : FlagsDefined (v ||| w) := by
  rw [FlagsDefined] at *
  rw [BitVec.and_or_distrib_right, hv, hw, BitVec.or_self]

theorem flagsDefined_raise (fs : List Flag) : FlagsDefined (raise fs) := by
  induction fs with
  | nil => exact flagsDefined_zero
  | cons fl fs ih => exact (flagsDefined_bit fl).or ih

theorem flagsDefined_raiseIf (cond : Bool) (fl : Flag) : FlagsDefined (raiseIf cond fl) := by
  cases cond
  · exact flagsDefined_zero
  · exact flagsDefined_bit fl

theorem flagsDefined_denormal1 (f : Fmt) (a : Word80) : FlagsDefined (denormal1 f a) :=
  flagsDefined_raiseIf _ _

theorem flagsDefined_denormal2 (f : Fmt) (a b : Word80) : FlagsDefined (denormal2 f a b) :=
  flagsDefined_raiseIf _ _

theorem flagsDefined_cvtDenormal (f : Fmt) (a : Word80) : FlagsDefined (cvtDenormal f a) := by
  cases f
  · exact flagsDefined_denormal1 .S a
  · exact flagsDefined_denormal1 .D a
  · exact flagsDefined_zero

theorem Result.Fits.also {r : Result} {n : Nat} (h : r.Fits n) {w : Word16} (hw : FlagsDefined w) :
    (r.also w).Fits n := ⟨h.value_lt, hw.or h.flagsDefined⟩

/-! ### Values -/

theorem mkPacked_lt (f : Fmt) (s : Bool) (e m : Nat) : (mkPacked f s e m).toNat < 2 ^ fmtBits f := by
  have hs : s.toNat ≤ 1 := Bool.toNat_le s
  rw [mkPacked_toNat]
  cases f <;> simp only [fmtBits, expBits, sigBits] <;> omega

theorem packZero_lt (f : Fmt) (s : Bool) : (packZero f s).toNat < 2 ^ fmtBits f := mkPacked_lt f s 0 0

theorem packInf_lt (f : Fmt) (s : Bool) : (packInf f s).toNat < 2 ^ fmtBits f := mkPacked_lt f s _ _

theorem packFinite_lt (f : Fmt) (s : Bool) (m : Nat) (q : Int) : (packFinite f s m q).toNat < 2 ^ fmtBits f := by
  unfold packFinite
  dsimp only
  split
  · exact mkPacked_lt f s _ _
  · exact mkPacked_lt f s _ _

theorem zeroExtend_lt {n : Nat} (w : BitVec n) : (w.setWidth 80).toNat < 2 ^ n := by
  rw [BitVec.toNat_setWidth]
  exact (Nat.mod_le _ _).trans_lt w.isLt

theorem defaultNaN_lt (P : Config.Params) (f : Fmt) : (defaultNaN P f).toNat < 2 ^ fmtBits f :=
  match f with
  | .S => zeroExtend_lt P.defaultNaNS
  | .D => zeroExtend_lt P.defaultNaND
  | .X => P.defaultNaNX.isLt

theorem intIndefinite_lt (P : Config.Params) (t : IntTy) : (intIndefinite P t).toNat < 2 ^ intBits t :=
  match t with
  | .W => zeroExtend_lt P.intIndefiniteW
  | .L => zeroExtend_lt P.intIndefiniteL

theorem boolResult_lt (b : Bool) : (boolResult b).toNat < 2 ^ 8 := by cases b <;> decide

theorem Relation.code_lt (rel : Relation) : rel.code.toNat < 2 ^ 8 := by cases rel <;> decide

theorem FloatClass.code_lt (cl : FloatClass) : cl.code.toNat < 2 ^ 8 := by cases cl <;> decide

theorem quiet_lt {f : Fmt} {a : Word80} (h : a.toNat < 2 ^ fmtBits f) : (quiet f a).toNat < 2 ^ fmtBits f := by
  have hq : (quietBit f).toNat < 2 ^ fmtBits f := by cases f <;> decide
  rw [quiet, BitVec.toNat_or]
  exact Nat.or_lt_two_pow h hq

theorem pickNaN_eq_or (c : Context) (f : Fmt) (a b : Word80) : pickNaN c f a b = a ∨ pickNaN c f a b = b := by
  unfold pickNaN
  split <;> split_ifs <;> simp

/-! ### NaN results and the rounder -/

theorem invalidResult_fits (P : Config.Params) (f : Fmt) : (invalidResult P f).Fits (fmtBits f) :=
  ⟨defaultNaN_lt P f, flagsDefined_raise _⟩

theorem quietNaNResult_fits {f : Fmt} {a : Word80} (h : a.toNat < 2 ^ fmtBits f) :
    (quietNaNResult f a).Fits (fmtBits f) := ⟨quiet_lt h, flagsDefined_raiseIf _ _⟩

theorem propagateNaN_fits (c : Context) {f : Fmt} {a b : Word80} (ha : a.toNat < 2 ^ fmtBits f)
    (hb : b.toNat < 2 ^ fmtBits f) : (propagateNaN c f a b).Fits (fmtBits f) := by
  have hpick : (pickNaN c f a b).toNat < 2 ^ fmtBits f := by
    obtain h | h := pickNaN_eq_or c f a b <;> rwa [h]
  exact ⟨quiet_lt hpick, flagsDefined_raiseIf _ _⟩

theorem overflowResult_fits (c : Context) (f : Fmt) (p : Nat) (s : Bool) :
    (overflowResult c f p s).Fits (fmtBits f) := by
  unfold overflowResult
  split
  · exact ⟨packInf_lt f s, (flagsDefined_raise _).or (flagsDefined_raiseIf _ _)⟩
  · exact ⟨packFinite_lt f s _ _, flagsDefined_raise _⟩

theorem deliver_fits (P : Config.Params) (f : Fmt) (s tiny : Bool) (q : Int) (r : Rounded) :
    (deliver P f s tiny q r).Fits (fmtBits f) where
  value_lt := by
    unfold deliver
    dsimp only
    split
    · exact packZero_lt f s
    · exact packFinite_lt f s _ _
  flagsDefined :=
    ((flagsDefined_raiseIf _ _).or (flagsDefined_raiseIf _ _)).or (flagsDefined_raiseIf _ _)

theorem roundPack_fits (P : Config.Params) (c : Context) (f : Fmt) (p : Nat) (s : Bool) (sig : Nat) (exp : Int)
    (sticky : Bool) : (roundPack P c f p s sig exp sticky).Fits (fmtBits f) := by
  unfold roundPack
  dsimp only
  split_ifs
  · exact overflowResult_fits c f p s
  · exact ⟨packZero_lt f s, flagsDefined_raise _⟩
  · exact deliver_fits P f s _ _ _

/-! ### The cores of the families -/

theorem addFinite_fits (P : Config.Params) (c : Context) (f : Fmt) (sa sb : Bool) (ua ub : Unpacked) :
    (addFinite P c f sa sb ua ub).Fits (fmtBits f) := by
  unfold addFinite
  dsimp only
  split
  · exact ⟨packZero_lt f _, flagsDefined_zero⟩
  · exact roundPack_fits ..

section
variable (P : Config.Params) (c : Context) {f : Fmt} {a b : Word80}

theorem addCore_fits (neg : Bool) (ha : a.toNat < 2 ^ fmtBits f) (hb : b.toNat < 2 ^ fmtBits f) :
    (addCore P c f a b neg).Fits (fmtBits f) := by
  unfold addCore
  dsimp only
  split_ifs
  · exact invalidResult_fits P f
  · exact propagateNaN_fits c ha hb
  · exact invalidResult_fits P f
  · exact ⟨ha, flagsDefined_denormal2 f a b⟩
  · exact ⟨packInf_lt f _, flagsDefined_denormal2 f a b⟩
  · exact (addFinite_fits ..).also (flagsDefined_denormal2 f a b)

theorem mulCore_fits (ha : a.toNat < 2 ^ fmtBits f) (hb : b.toNat < 2 ^ fmtBits f) :
    (mulCore P c f a b).Fits (fmtBits f) := by
  unfold mulCore
  dsimp only
  split_ifs
  · exact invalidResult_fits P f
  · exact propagateNaN_fits c ha hb
  · exact invalidResult_fits P f
  · exact ⟨packInf_lt f _, flagsDefined_denormal2 f a b⟩
  · exact ⟨packZero_lt f _, flagsDefined_denormal2 f a b⟩
  · exact (roundPack_fits ..).also (flagsDefined_denormal2 f a b)

theorem divCore_fits (ha : a.toNat < 2 ^ fmtBits f) (hb : b.toNat < 2 ^ fmtBits f) :
    (divCore P c f a b).Fits (fmtBits f) := by
  unfold divCore
  dsimp only
  split_ifs
  · exact invalidResult_fits P f
  · exact propagateNaN_fits c ha hb
  · exact invalidResult_fits P f
  · exact ⟨packInf_lt f _, flagsDefined_raise _⟩
  · exact ⟨packInf_lt f _, flagsDefined_denormal2 f a b⟩
  · exact ⟨packZero_lt f _, flagsDefined_denormal2 f a b⟩
  · exact ⟨packZero_lt f _, flagsDefined_denormal2 f a b⟩
  · exact (roundPack_fits ..).also (flagsDefined_denormal2 f a b)

theorem sqrtCore_fits (ha : a.toNat < 2 ^ fmtBits f) : (sqrtCore P c f a).Fits (fmtBits f) := by
  unfold sqrtCore
  split_ifs
  · exact invalidResult_fits P f
  · exact quietNaNResult_fits ha
  · exact ⟨ha, flagsDefined_zero⟩
  · exact invalidResult_fits P f
  · exact ⟨ha, flagsDefined_zero⟩
  · exact (roundPack_fits ..).also (flagsDefined_denormal1 f a)

theorem rintFinite_fits (u : Unpacked) (ha : a.toNat < 2 ^ fmtBits f) : (rintFinite c f a u).Fits (fmtBits f) := by
  unfold rintFinite
  dsimp only
  split_ifs
  · exact ⟨ha, flagsDefined_zero⟩
  · exact ⟨packZero_lt f _, (flagsDefined_raiseIf _ _).or (flagsDefined_raiseIf _ _)⟩
  · exact ⟨packFinite_lt f _ _ _, (flagsDefined_raiseIf _ _).or (flagsDefined_raiseIf _ _)⟩

theorem rintCore_fits (ha : a.toNat < 2 ^ fmtBits f) : (rintCore P c f a).Fits (fmtBits f) := by
  unfold rintCore
  split_ifs
  · exact invalidResult_fits P f
  · exact quietNaNResult_fits ha
  · exact ⟨ha, flagsDefined_zero⟩
  · exact (rintFinite_fits c _ ha).also (flagsDefined_denormal1 f a)

theorem cvtFF_fits (src dst : Fmt) (a : Word80) : (cvtFF P c src dst a).Fits (fmtBits dst) := by
  unfold cvtFF
  dsimp only
  split_ifs
  · exact invalidResult_fits P dst
  · exact ⟨mkPacked_lt dst _ _ _, flagsDefined_raiseIf _ _⟩
  · exact ⟨packInf_lt dst _, flagsDefined_zero⟩
  · exact ⟨packZero_lt dst _, flagsDefined_zero⟩
  · exact (roundPack_fits ..).also (flagsDefined_cvtDenormal src a)

theorem cvtIF_fits (dst : Fmt) (n : Int) : (cvtIF P c dst n).Fits (fmtBits dst) := by
  unfold cvtIF
  split
  · exact ⟨packZero_lt dst _, flagsDefined_zero⟩
  · exact roundPack_fits ..

theorem invalidInt_fits (t : IntTy) : (invalidInt P t).Fits (intBits t) :=
  ⟨intIndefinite_lt P t, flagsDefined_raise _⟩

theorem cvtFI_fits (src : Fmt) (t : IntTy) (a : Word80) (trunc : Bool) :
    (cvtFI P c src t a trunc).Fits (intBits t) := by
  unfold cvtFI
  generalize (if trunc then Rounding.towardZero else c.rm) = rm
  dsimp only
  split_ifs
  · exact invalidInt_fits P t
  · exact ⟨Nat.two_pow_pos _, flagsDefined_zero⟩
  · exact ⟨zeroExtend_lt _, flagsDefined_raiseIf _ _⟩
  · exact invalidInt_fits P t

end

theorem flagsDefined_cmpCore (f : Fmt) (a b : Word80) (signaling : Bool) :
    FlagsDefined (cmpCore f a b signaling).flags := by
  unfold cmpCore
  split_ifs
  · exact flagsDefined_raise _
  · exact flagsDefined_raiseIf _ _
  · exact flagsDefined_denormal2 f a b

theorem predicateOp_fits (holds : Relation → Bool) (signaling : Bool) (f : Fmt) (a b : Word80) :
    (predicateOp holds signaling f a b).Fits 8 := ⟨boolResult_lt _, flagsDefined_cmpCore ..⟩

/-! ### Every command -/

/-- Whatever the operands and CTRL, a command's result fits its type and its flags exist. -/
theorem Computes.fits {i : Instr} {src dst : OpType} {two : Bool} {op : Context → Word80 → Word80 → Result}
    (h : Computes i src dst two op) (c : Context) (a b : Word80) : (op c a b).Fits dst.bits := by
  cases h with
  | fadd f | fsub f => exact addCore_fits _ c _ (fltOperand_lt f a) (fltOperand_lt f b)
  | fmul f => exact mulCore_fits _ c (fltOperand_lt f a) (fltOperand_lt f b)
  | fdiv f => exact divCore_fits _ c (fltOperand_lt f a) (fltOperand_lt f b)
  | fsqrt f => exact sqrtCore_fits _ c (fltOperand_lt f a)
  | frint f => exact rintCore_fits _ c (fltOperand_lt f a)
  | feq sg f | flt sg f | fle sg f | funord sg f => exact predicateOp_fits _ sg f a b
  | fcmp sg f => exact ⟨Relation.code_lt _, flagsDefined_cmpCore ..⟩
  | @fcvtFF src dst _ _ => exact cvtFF_fits _ c src dst _
  | fcvtIF t dst => exact cvtIF_fits _ c dst _
  | fcvtFI trunc src t => exact cvtFI_fits _ c src t _ trunc
  | fclass f => exact ⟨FloatClass.code_lt _, flagsDefined_zero⟩
  | fsnan f => exact ⟨boolResult_lt _, flagsDefined_zero⟩

/-- Settles O13, from `Computes.fits`. -/
theorem resultsAreZeroExtended : Obligations.ResultsAreZeroExtended := by
  intro i s hready
  obtain ⟨c, hr⟩ := hready.exists_context
  obtain ⟨op, hop⟩ := exists_computes i
  exact ⟨_, hop.completes hr, (hop.fits c _ _).value_lt⟩

end Sys2Proof.Machine
end

section
/-! PROOFS. Which fields of CTRL a command reads (10_state.md R18). -/

namespace Sys2Proof.Machine

/-! ### The Status Context of two values of CTRL -/

theorem getLsbD_eq_of_and_eq {n : Nat} {x y mask : BitVec n} (h : x &&& mask = y &&& mask) {j : Nat}
    (hj : mask.getLsbD j = true) : x.getLsbD j = y.getLsbD j := by
  simpa [hj] using congrArg (BitVec.getLsbD · j) h

theorem roundingOf_congr {ctrl ctrl' : Word16} (h0 : ctrl.getLsbD 0 = ctrl'.getLsbD 0)
    (h1 : ctrl.getLsbD 1 = ctrl'.getLsbD 1) : roundingOf ctrl = roundingOf ctrl' := by
  have hfield : ctrl.extractLsb' 0 2 = ctrl'.extractLsb' 0 2 := by
    ext j hj
    obtain rfl | rfl : j = 0 ∨ j = 1 := by omega
    · simpa using h0
    · simpa using h1
  rw [roundingOf, roundingOf, hfield]

theorem precisionOf_congr {ctrl ctrl' : Word16} (h2 : ctrl.getLsbD 2 = ctrl'.getLsbD 2)
    (h3 : ctrl.getLsbD 3 = ctrl'.getLsbD 3) : precisionOf ctrl = precisionOf ctrl' := by
  have hfield : ctrl.extractLsb' 2 2 = ctrl'.extractLsb' 2 2 := by
    ext j hj
    obtain rfl | rfl : j = 0 ∨ j = 1 := by omega
    · simpa using h2
    · simpa using h3
  rw [precisionOf, precisionOf, hfield]

/-- Where only the bits of PC differ and PC stays legal, the Status Context differs in its precision alone. -/
theorem contextOf_of_pc_changed {ctrl ctrl' : Word16} {c : Context} (hc : contextOf ctrl = some c)
    (h : ctrl' &&& 0xFFF3#16 = ctrl &&& 0xFFF3#16) (hpc : ctrl'.extractLsb' 2 2 ≠ 1#2) :
    ∃ p, contextOf ctrl' = some { c with prec := p } := by
  obtain ⟨-, hrm, hnan, hftz⟩ := (contextOf_eq_some_iff ctrl c).mp hc
  obtain ⟨c', hc'⟩ := exists_contextOf hpc
  have hprec := ((contextOf_eq_some_iff ctrl' c').mp hc').1
  refine ⟨c'.prec, (contextOf_eq_some_iff _ _).mpr ⟨hprec, ?_, ?_, ?_⟩⟩
  · exact hrm.trans (roundingOf_congr (getLsbD_eq_of_and_eq h rfl) (getLsbD_eq_of_and_eq h rfl)).symm
  · rw [nanModeOf, getLsbD_eq_of_and_eq h rfl]
    exact hnan
  · rw [getLsbD_eq_of_and_eq h rfl]
    exact hftz

/-- Where only NANMODE differs, the Status Context differs in its NaN mode alone. -/
theorem contextOf_of_nanMode_changed {ctrl ctrl' : Word16} {c : Context} (hc : contextOf ctrl = some c)
    (h : ctrl' &&& 0xFFEF#16 = ctrl &&& 0xFFEF#16) : ∃ m, contextOf ctrl' = some { c with nanMode := m } := by
  obtain ⟨hprec, hrm, -, hftz⟩ := (contextOf_eq_some_iff ctrl c).mp hc
  refine ⟨nanModeOf ctrl', (contextOf_eq_some_iff _ _).mpr ⟨?_, ?_, rfl, ?_⟩⟩
  · exact (precisionOf_congr (getLsbD_eq_of_and_eq h rfl) (getLsbD_eq_of_and_eq h rfl)).trans hprec
  · exact hrm.trans (roundingOf_congr (getLsbD_eq_of_and_eq h rfl) (getLsbD_eq_of_and_eq h rfl)).symm
  · rw [getLsbD_eq_of_and_eq h rfl]
    exact hftz

/-! ### What the shared operations read -/

/-- Rounding reads the rounding mode and the flush, and takes its precision as an argument. -/
theorem roundPack_congr {c c' : Context} (hrm : c.rm = c'.rm) (hftz : c.ftz = c'.ftz) (P : Config.Params) :
    roundPack P c = roundPack P c' := by
  have hexp : roundedExp c = roundedExp c' := by
    funext p s sig exp sticky
    simp only [roundedExp, hrm]
  have hover : overflowResult c = overflowResult c' := by
    funext f p s
    simp only [overflowResult, hrm]
  funext f p s sig exp sticky
  simp only [roundPack, hexp, hover, hrm, hftz]

theorem propagateNaN_congr {c c' : Context} (h : c.nanMode = c'.nanMode) : propagateNaN c = propagateNaN c' := by
  funext f a b
  simp only [propagateNaN, pickNaN, h]

/-- Only extended80 arithmetic takes its precision from CTRL.PC (41_rounder.md R104). -/
theorem arithPrec_of_ne_X {f : Fmt} (hf : f ≠ .X) (c : Context) : arithPrec c f = precBits f := by
  cases f with
  | S | D => rfl
  | X => exact absurd rfl hf

section
variable {i : Instr} {src dst : OpType} {two : Bool} {op : Context → Word80 → Word80 → Result}

/-- Comparisons, the codec commands and the truncating conversions do not look at the Status Context. -/
theorem Computes.op_of_no_control (h : Computes i src dst two op)
    (hi : i.isCmp = true ∨ i ∈ [Instr.fclassS, .fclassD, .fclassX, .fsnanS, .fsnanD, .fsnanX,
      .fcvttWS, .fcvttLS, .fcvttWD, .fcvttLD, .fcvttWX, .fcvttLX]) (c c' : Context) : op c = op c' := by
  cases h with
  | feq | flt | fle | funord | fcmp | fclass | fsnan => rfl
  | fadd f | fsub f | fmul f | fdiv f | fsqrt f | frint f => exact absurd hi (by cases f <;> decide)
  | @fcvtFF src dst _ h =>
    exact absurd hi (by cases src <;> cases dst <;> cases h <;> decide)
  | fcvtIF t dst => exact absurd hi (by cases t <;> cases dst <;> decide)
  | fcvtFI trunc src t =>
    cases trunc with
    | true => rfl
    | false => exact absurd hi (by cases src <;> cases t <;> decide)

/-- Outside extended80 arithmetic the precision in the Status Context makes no difference. -/
theorem Computes.op_of_prec_changed (h : Computes i src dst two op)
    (hi : i ∉ [Instr.faddX, .fsubX, .fmulX, .fdivX, .fsqrtX]) (c : Context) (p : Precision) :
    op { c with prec := p } = op c := by
  have hround (P : Config.Params) : roundPack P { c with prec := p } = roundPack P c := roundPack_congr rfl rfl P
  have hnan : propagateNaN { c with prec := p } = propagateNaN c := propagateNaN_congr rfl
  have hprec {f : Fmt} (hf : f ≠ .X) : arithPrec { c with prec := p } f = arithPrec c f := by
    rw [arithPrec_of_ne_X hf, arithPrec_of_ne_X hf]
  cases h with
  | fadd f | fsub f =>
    have hf : f ≠ .X := by rintro rfl; exact hi (by decide)
    funext a b
    simp only [faddOp, fsubOp, addCore, addFinite, hround, hnan, hprec hf]
  | fmul f =>
    have hf : f ≠ .X := by rintro rfl; exact hi (by decide)
    funext a b
    simp only [fmulOp, mulCore, hround, hnan, hprec hf]
  | fdiv f =>
    have hf : f ≠ .X := by rintro rfl; exact hi (by decide)
    funext a b
    simp only [fdivOp, divCore, divFinite, hround, hnan, hprec hf]
  | fsqrt f =>
    have hf : f ≠ .X := by rintro rfl; exact hi (by decide)
    funext a _
    simp only [fsqrtOp, sqrtCore, sqrtFinite, hround, hprec hf]
  | fcvtFF => funext a _; simp only [fcvtFFOp, cvtFF, hround]
  | fcvtIF => funext a _; simp only [fcvtIFOp, cvtIF, hround]
  | frint | fcvtFI | feq | flt | fle | funord | fcmp | fclass | fsnan => rfl

/-- Outside two-operand arithmetic the NaN mode in the Status Context makes no difference. -/
theorem Computes.op_of_nanMode_changed (h : Computes i src dst two op)
    (hi : i ∉ [Instr.faddS, .faddD, .faddX, .fsubS, .fsubD, .fsubX, .fmulS, .fmulD, .fmulX, .fdivS, .fdivD, .fdivX])
    (c : Context) (m : NanMode) : op { c with nanMode := m } = op c := by
  have hround (P : Config.Params) : roundPack P { c with nanMode := m } = roundPack P c := roundPack_congr rfl rfl P
  have hprec (f : Fmt) : arithPrec { c with nanMode := m } f = arithPrec c f := rfl
  cases h with
  | fadd f | fsub f | fmul f | fdiv f => exact absurd (by cases f <;> decide) hi
  | fsqrt f => funext a _; simp only [fsqrtOp, sqrtCore, sqrtFinite, hround, hprec]
  | fcvtFF => funext a _; simp only [fcvtFFOp, cvtFF, hround]
  | fcvtIF => funext a _; simp only [fcvtIFOp, cvtIF, hround]
  | frint | fcvtFI | feq | flt | fle | funord | fcmp | fclass | fsnan => rfl

end

/-! ### The obligations on CTRL -/

/-- Settles O19: both values of CTRL give a Status Context, and the command does not look at it. -/
theorem comparisonCodecAndTruncationReadNoControl : Obligations.ComparisonCodecAndTruncationReadNoControl := by
  intro i s ctrl hi hready hpc
  obtain ⟨c, hr⟩ := hready.exists_context
  obtain ⟨c', hc'⟩ := exists_contextOf hpc
  obtain ⟨op, hop⟩ := exists_computes i
  have hr' : ReadyUnder i { s with ctrl := ctrl } c' := ⟨hc', hr.2⟩
  exact hop.completes_alike hr hr' (congrFun₂ (hop.op_of_no_control hi c c') s.opa s.opb)

/-- Settles O20: the two Status Contexts differ in the precision alone. -/
theorem precisionControlIsReadByFiveCommandsOnly : Obligations.PrecisionControlIsReadByFiveCommandsOnly := by
  intro i s ctrl hi hmask hready hpc
  obtain ⟨c, hr⟩ := hready.exists_context
  obtain ⟨p, hc'⟩ := contextOf_of_pc_changed hr.1 hmask hpc
  obtain ⟨op, hop⟩ := exists_computes i
  have hr' : ReadyUnder i { s with ctrl := ctrl } { c with prec := p } := ⟨hc', hr.2⟩
  exact hop.completes_alike hr hr' (congrFun₂ (hop.op_of_prec_changed hi c p).symm s.opa s.opb)

/-- Settles O21: the two Status Contexts differ in the NaN mode alone. -/
theorem nanModeIsReadByTwoOperandArithmeticOnly : Obligations.NanModeIsReadByTwoOperandArithmeticOnly := by
  intro i s ctrl hi hmask hready
  obtain ⟨c, hr⟩ := hready.exists_context
  obtain ⟨m, hc'⟩ := contextOf_of_nanMode_changed hr.1 hmask
  obtain ⟨op, hop⟩ := exists_computes i
  have hr' : ReadyUnder i { s with ctrl := ctrl } { c with nanMode := m } := ⟨hc', hr.2⟩
  exact hop.completes_alike hr hr' (congrFun₂ (hop.op_of_nanMode_changed hi c m).symm s.opa s.opb)

/-- Settles O9, field by field of `contextOf`. -/
theorem reservedPrecisionRefusesEveryCommand : Obligations.ReservedPrecisionRefusesEveryCommand := by
  refine ⟨contextOf_eq_none_iff, fun ctrl c hc => ?_, fun i s hpc =>
    exec_of_no_context i ((contextOf_eq_none_iff _).mpr hpc)⟩
  obtain ⟨hprec, hrm, hnan, hftz⟩ := (contextOf_eq_some_iff ctrl c).mp hc
  have hpc {p : Precision} (h : precisionOf ctrl = some p) : c.prec = p ∧ arithPrec c .X = p.bits := by
    obtain rfl : c.prec = p := Option.some.inj (hprec.symm.trans h)
    exact ⟨rfl, rfl⟩
  rw [hrm, hnan]
  refine ⟨?_, ?_, ?_, ?_, ?_, ?_, ?_, rfl, rfl, ?_, ?_, hftz⟩
  iterate 4 exact fun hfield => by rw [roundingOf, hfield]; rfl
  iterate 3 exact fun hfield => hpc (by rw [precisionOf, hfield]; rfl)
  iterate 2 exact fun hbit => by rw [nanModeOf, hbit]; rfl

end Sys2Proof.Machine
end

section
/-! PROOFS. What one step can do to the registers (10_state.md R10 to R29), and the invariants that follow from it. -/

namespace Sys2Proof.Machine

/-- The transaction writes register `n`: a value the host names, or the value it read last (30_encoding.md R41, R57). -/
def WritesTo (e : HostEvent) (n : Nat) : Prop := (∃ v, e = .wr n v) ∨ e = .wrRead n

/-- What transaction `e` can make of the block: one constructor per way it can go through. -/
inductive Effect (e : HostEvent) (s : State) : State → Prop
  | opaWritten (v : Word80) : WritesTo e 0 → Effect e s (writeOpa v s)
  | opbWritten (v : Word80) : WritesTo e 1 → Effect e s (writeOpb v s)
  | ctrlWritten (v : Word80) : WritesTo e 3 → Effect e s (writeCtrl v s)
  | flagsWritten (v : Word80) : WritesTo e 4 → Effect e s (writeFlags v s)
  | completed {i : Instr} {c : Context} {op : Context → Word80 → Word80 → Result} :
      WritesTo e 5 → Computes i (srcType i) (dstType i) (readsOpb i) op → ReadyUnder i s c →
      Effect e s (complete s (op c s.opa s.opb))
  | registerRead (n : Nat) (v : Word80) : e = .rd n → Effect e s (record n v s)
  | wasReset : e = .reset → Effect e s (resetBlock s)

theorem effect_of_commandStep {e : HostEvent} {w : Word16} {s t : State} (he : WritesTo e 5)
    (h : commandStep w s = .next t) : Effect e s t := by
  obtain ⟨i, -, hexec⟩ | ⟨why, -, hrefused⟩ := commandStep_cases w s
  · obtain ⟨why, hrefused⟩ | ⟨c, op, hr, hop, hnext⟩ := exec_cases i s
    · cases (hexec.trans hrefused).symm.trans h
    · cases (hexec.trans hnext).symm.trans h
      exact .completed he hop hr
  · cases hrefused.symm.trans h

theorem effect_of_hostWrite {e : HostEvent} {n : Nat} {v : Word80} {s t : State} (he : WritesTo e n)
    (h : hostWrite n v s = .next t) : Effect e s t := by
  obtain ⟨rfl, hw⟩ | ⟨rfl, hw⟩ | ⟨rfl, hw⟩ | ⟨rfl, hw⟩ | ⟨rfl, hw⟩ | ⟨rfl, hw⟩ | ⟨-, hw⟩ := hostWrite_cases n v s
  · cases hw.symm.trans h
    exact .opaWritten v he
  · cases hw.symm.trans h
    exact .opbWritten v he
  · cases hw.symm.trans h
  · cases hw.symm.trans h
    exact .ctrlWritten v he
  · cases hw.symm.trans h
    exact .flagsWritten v he
  · exact effect_of_commandStep he (hw.symm.trans h)
  · cases hw.symm.trans h

theorem perform_wrRead_of_none {n : Nat} {s : State} (h : s.readings = []) :
    perform (.wrRead n) s = .refused .nothingRead := by
  simp [perform, h]

theorem perform_wrRead_of_cons {n : Nat} {s : State} {r : Reading} {older : List Reading}
    (h : s.readings = r :: older) : perform (.wrRead n) s = hostWrite n r.value s := by
  simp [perform, h]

theorem effect_of_perform {e : HostEvent} {s t : State} (h : perform e s = .next t) : Effect e s t := by
  cases e with
  | wr n v => exact effect_of_hostWrite (.inl ⟨v, rfl⟩) h
  | rd n =>
    obtain ⟨v, -, hread⟩ | ⟨why, -, hrefused⟩ := hostRead_cases n s
    · cases hread.symm.trans h
      exact .registerRead n v rfl
    · cases hrefused.symm.trans h
  | wrRead n =>
    cases hread : s.readings with
    | nil => cases (perform_wrRead_of_none hread).symm.trans h
    | cons r older => exact effect_of_hostWrite (.inr rfl) ((perform_wrRead_of_cons hread).symm.trans h)
  | reset =>
    cases h
    exact .wasReset rfl

/-- Everything a step can do: nothing where no transaction is pending, otherwise an effect of the first one on the
state without it. -/
theorem step_cases {s t : State} (h : step s = .next t) :
    (s.script = [] ∧ t = s) ∨
    ∃ e rest, s.script = e :: rest ∧ Effect e { s with script := rest } t := by
  cases hscript : s.script with
  | nil =>
    cases (step_of_empty hscript).symm.trans h
    exact .inl ⟨rfl, rfl⟩
  | cons e rest => exact .inr ⟨e, rest, rfl, effect_of_perform ((step_eq_perform hscript).symm.trans h)⟩

/-! ### The reserved bits -/

theorem reservedBitsZero_reset : ReservedBitsZero State.reset := ⟨rfl, rfl⟩

/-- A value cut to the bits of a mask has none of the bits outside it. -/
theorem and_mask_and_reserved {n : Nat} (w : BitVec n) {mask reserved : BitVec n} (h : mask &&& reserved = 0#n) :
    w &&& mask &&& reserved = 0#n := by
  rw [BitVec.and_assoc, h, BitVec.and_zero]

theorem Effect.reservedBitsZero {e : HostEvent} {s t : State} (h : Effect e s t) (hs : ReservedBitsZero s) :
    ReservedBitsZero t := by
  obtain ⟨hctrl, hflags⟩ := hs
  cases h with
  | opaWritten | opbWritten | registerRead => exact ⟨hctrl, hflags⟩
  | ctrlWritten v => exact ⟨and_mask_and_reserved _ rfl, hflags⟩
  | flagsWritten v => exact ⟨hctrl, and_mask_and_reserved _ rfl⟩
  | completed _ hop hr => exact ⟨hctrl, FlagsDefined.or hflags (hop.fits _ _ _).flagsDefined⟩
  | wasReset => exact reservedBitsZero_reset

/-- Settles O17: CTRL and FLAGS are masked where they are written, and a command adds only flags that exist. -/
theorem reservedBitsStayZero : Obligations.ReservedBitsStayZero := by
  intro s t hs hstep
  obtain ⟨-, rfl⟩ | ⟨e, rest, -, heffect⟩ := step_cases hstep
  · exact hs
  · exact heffect.reservedBitsZero hs

/-- Settles O18, the start of the invariant of O17. -/
theorem reservedBitsAreZeroAfterReset : Obligations.ReservedBitsAreZeroAfterReset := reservedBitsZero_reset

/-! ### Who writes which register -/

theorem and_or_absorb {n : Nat} (x y : BitVec n) : x &&& (x ||| y) = x := by
  ext j hj
  simpa using Or.inl

theorem Effect.flags_kept {e : HostEvent} {s t : State} (h : Effect e s t) (hwrite : ¬ WritesTo e 4)
    (hreset : e ≠ .reset) : s.flags &&& t.flags = s.flags := by
  cases h with
  | opaWritten | opbWritten | ctrlWritten | registerRead => exact BitVec.and_self
  | flagsWritten _ he => exact absurd he hwrite
  | completed => exact and_or_absorb _ _
  | wasReset he => exact absurd he hreset

/-- Settles O15: of the remaining effects only a command's touches FLAGS, by an OR. -/
theorem flagsAreSticky : Obligations.FlagsAreSticky := by
  intro s t hstep hwr hwrRead hreset
  obtain ⟨-, rfl⟩ | ⟨e, rest, hscript, heffect⟩ := step_cases hstep
  · exact BitVec.and_self
  · simp only [hscript, List.head?_cons, ne_eq, Option.some.injEq] at hwr hwrRead hreset
    refine heffect.flags_kept ?_ hreset
    rintro (⟨v, he⟩ | he)
    · exact hwr v he
    · exact hwrRead he

/-- Each register, where it changes, was written, or written by a command, or reset. -/
theorem Effect.writer_of_change {e : HostEvent} {s t : State} (h : Effect e s t) :
    (t.opa ≠ s.opa → WritesTo e 0 ∨ e = .reset) ∧ (t.opb ≠ s.opb → WritesTo e 1 ∨ e = .reset) ∧
    (t.ctrl ≠ s.ctrl → WritesTo e 3 ∨ e = .reset) ∧ (t.res ≠ s.res → WritesTo e 5 ∨ e = .reset) ∧
    (t.flags ≠ s.flags → WritesTo e 4 ∨ WritesTo e 5 ∨ e = .reset) := by
  cases h with
  | opaWritten _ he | opbWritten _ he | ctrlWritten _ he | flagsWritten _ he => simp [he]
  | completed he => simp [he]
  | registerRead => simp
  | wasReset he => simp [he]

/-- Settles O16, from the effect of the step's transaction. -/
theorem registersChangeOnlyByTheirOwnWriter : Obligations.RegistersChangeOnlyByTheirOwnWriter := by
  intro s t hstep
  obtain ⟨-, rfl⟩ | ⟨e, rest, hscript, heffect⟩ := step_cases hstep
  · simp
  · simpa only [hscript, List.head?_cons, Option.some.injEq, WritesTo, or_assoc] using heffect.writer_of_change

/-! ### Reset and the unwritten registers -/

/-- Settles O7, by evaluating the reset state. -/
theorem resetLeavesTheStatedContext : Obligations.ResetLeavesTheStatedContext :=
  ⟨rfl, rfl, rfl, fun _ hset => hset BitVec.zero_and⟩

theorem hostRead_res_of_unwritten {s : State} (h : s.resHeld = false) : hostRead 2 s = .refused .resUnwritten := by
  simp [hostRead, readRegister, h]

/-- Settles O8, from the refusals of the command step and of the read of RES. -/
theorem unwrittenRegistersAreRefused : Obligations.UnwrittenRegistersAreRefused := by
  refine ⟨⟨rfl, rfl, rfl⟩, fun i s hpc ha => ?_, fun i s hpc ha h2 hb => ?_, fun s rest hscript hres => ?_,
    fun s rest v => ⟨fun hscript => step_eq_perform hscript, fun hscript => step_eq_perform hscript⟩⟩
  · obtain ⟨c, hc⟩ := exists_contextOf hpc
    exact exec_of_opa_unwritten i hc ha
  · obtain ⟨c, hc⟩ := exists_contextOf hpc
    exact exec_of_opb_unwritten h2 hc ha hb
  · exact (step_eq_perform hscript).trans (hostRead_res_of_unwritten hres)

end Sys2Proof.Machine
end

section
/-! PROOFS. The byte image of a packed value and its reading back (20_memory.md R33 to R35). -/

namespace Sys2Proof.Machine

/-! ### The number a list of bytes stands for -/

theorem bytesValue_append (bs cs : List (BitVec 8)) :
    bytesValue (bs ++ cs) = bytesValue bs + 2 ^ (8 * bs.length) * bytesValue cs := by
  induction bs with
  | nil => simp [bytesValue]
  | cons b bs ih =>
    rw [List.cons_append, bytesValue, bytesValue, ih, List.length_cons]
    ring

theorem bytesValue_lt (bs : List (BitVec 8)) : bytesValue bs < 2 ^ (8 * bs.length) := by
  induction bs with
  | nil => exact Nat.one_pos
  | cons b bs ih =>
    have hb := b.isLt
    rw [bytesValue, List.length_cons, Nat.mul_succ, Nat.add_comm, Nat.pow_add]
    omega

theorem bytesValue_eq_sum (bs : List (BitVec 8)) :
    bytesValue bs = ((List.range bs.length).map (fun i => (bs.getD i 0).toNat * 2 ^ (8 * i))).sum := by
  induction bs with
  | nil => rfl
  | cons b bs ih =>
    have hshift (i : Nat) : ((b :: bs).getD (i + 1) 0).toNat * 2 ^ (8 * (i + 1)) =
        2 ^ 8 * ((bs.getD i 0).toNat * 2 ^ (8 * i)) := by
      rw [List.getD_cons_succ]
      ring
    rw [bytesValue, ih, List.length_cons, List.range_succ_eq_map, List.map_cons, List.map_map, List.sum_cons,
      ← List.sum_map_mul_left]
    simp only [Function.comp_def, Nat.succ_eq_add_one, hshift]
    simp

/-! ### The bytes of a packed value -/

theorem byteAt_toNat (v : Word80) (i : Nat) : (byteAt v i).toNat = v.toNat / 2 ^ (8 * i) % 2 ^ 8 := by
  rw [byteAt, BitVec.extractLsb'_toNat, Nat.shiftRight_eq_div_pow]

/-- The low `n` bytes of a value stand for its low `8n` bits: each further byte supplies the next eight. -/
theorem bytesValue_lowBytes (v : Word80) (n : Nat) :
    bytesValue ((List.range n).map (byteAt v)) = v.toNat % 2 ^ (8 * n) := by
  induction n with
  | zero => simp [bytesValue, Nat.mod_one]
  | succ n ih =>
    calc bytesValue ((List.range (n + 1)).map (byteAt v))
        = bytesValue ((List.range n).map (byteAt v)) + 2 ^ (8 * n) * (byteAt v n).toNat := by
          simp [List.range_succ, bytesValue_append, bytesValue]
      _ = v.toNat % 2 ^ (8 * n) + 2 ^ (8 * n) * (v.toNat / 2 ^ (8 * n) % 2 ^ 8) := by rw [ih, byteAt_toNat]
      _ = v.toNat % 2 ^ (8 * (n + 1)) := by rw [← Nat.mod_mul, ← Nat.pow_add, Nat.mul_succ]

/-! ### The image of each format -/

theorem eight_mul_imageBytes (f : Fmt) : 8 * imageBytes f = fmtBits f := by cases f <;> rfl

@[simp] theorem toBytes_length (f : Fmt) (v : Word80) : (toBytes f v).length = imageBytes f := by simp [toBytes]

theorem toBytes_getElem? {f : Fmt} {i : Nat} (v : Word80) (hi : i < imageBytes f) :
    (toBytes f v)[i]? = some (byteAt v i) := by
  simp [toBytes, hi]

theorem bytesValue_toBytes {f : Fmt} {v : Word80} (hv : v.toNat < 2 ^ fmtBits f) :
    bytesValue (toBytes f v) = v.toNat := by
  rw [toBytes, bytesValue_lowBytes, eight_mul_imageBytes, Nat.mod_eq_of_lt hv]

/-- Reading looks at the bytes of the image only, so what follows them makes no difference. -/
theorem fromBytes_toBytes_append {f : Fmt} {v : Word80} (hv : v.toNat < 2 ^ fmtBits f) (pad : List (BitVec 8)) :
    fromBytes f (toBytes f v ++ pad) = v := by
  rw [fromBytes, List.take_left' (toBytes_length f v), bytesValue_toBytes hv, BitVec.ofNat_toNat, BitVec.setWidth_eq]

theorem fromBytes_toNat {f : Fmt} {bs : List (BitVec 8)} (h : bs.length = imageBytes f) :
    (fromBytes f bs).toNat = bytesValue bs := by
  have hfits : bytesValue bs < 2 ^ 80 := by
    have hle : 8 * bs.length ≤ 80 := by
      rw [h]
      cases f <;> decide
    exact (bytesValue_lt bs).trans_le (Nat.pow_le_pow_right Nat.two_pos hle)
  rw [fromBytes, List.take_of_length_le h.le, BitVec.toNat_ofNat, Nat.mod_eq_of_lt hfits]

/-! ### The obligations on byte images -/

/-- Settles O24: the bytes of the image stand for the value, and a list of the image's length for its sum. -/
theorem byteImageRoundTrips : Obligations.ByteImageRoundTrips := by
  intro f v hv
  refine ⟨?_, fun i hi => ?_, ?_, fun bs hbs => ?_⟩
  · rw [toBytes_length]
    cases f <;> rfl
  · exact toBytes_getElem? v (toBytes_length f v ▸ hi)
  · simpa using fromBytes_toBytes_append hv []
  · rw [fromBytes_toNat hbs, bytesValue_eq_sum]

/-- Settles O25: every 80-bit value is packed extended80, and reading stops after its ten bytes. -/
theorem containerPaddingIsIgnored : Obligations.ContainerPaddingIsIgnored :=
  fun v pad => ⟨rfl, fromBytes_toBytes_append (f := .X) v.isLt pad⟩

end Sys2Proof.Machine
end

section
/-! PROOFS. The command word by its four fields (30_encoding.md R42), the rows of the table in those fields (R45 to
R51), and the agreement of the decoder with the encoder. -/

namespace Sys2Proof

/-! ### Fields and type codes -/

/-- The word with these fields: `GRP[15:12] FN[11:8] SRC[7:4] DST[3:0]` (30_encoding.md R42). -/
def wordOf (g fn s d : BitVec 4) : Word16 := g ++ (fn ++ (s ++ d))

theorem wordOf_fields (w : Word16) :
    wordOf (w.extractLsb' 12 4) (w.extractLsb' 8 4) (w.extractLsb' 4 4) (w.extractLsb' 0 4) = w := by
  rw [wordOf, BitVec.extractLsb'_append_extractLsb'_eq_extractLsb' (start₂ := 4) rfl,
    BitVec.extractLsb'_append_extractLsb'_eq_extractLsb' (start₂ := 8) rfl,
    BitVec.extractLsb'_append_extractLsb'_eq_extractLsb' (start₂ := 12) rfl]
  exact BitVec.extractLsb'_eq_self

/-- The type code of a float format (30_encoding.md R43). -/
def fmtCode : Fmt → BitVec 4
  | .S => 0#4
  | .D => 1#4
  | .X => 2#4

/-- The type code of an integer type (30_encoding.md R43). -/
def intCode : IntTy → BitVec 4
  | .W => 8#4
  | .L => 9#4

theorem eq_fmtCode_of_fmtOfCode {t : BitVec 4} {f : Fmt} (h : fmtOfCode t = some f) : t = fmtCode f := by
  revert t
  cases f <;> decide

theorem eq_intCode_of_intOfCode {t : BitVec 4} {ty : IntTy} (h : intOfCode t = some ty) : t = intCode ty := by
  revert t
  cases ty <;> decide

theorem orReserved_eq_ok_iff {o : Option Instr} {r : Reserved} {i : Instr} :
    orReserved o r = .ok i ↔ o = some i := by
  cases o <;> simp [orReserved]

/-- A check of the decoder that a word passes. -/
theorem ite_error_eq_ok_iff {p : Prop} [Decidable p] {x : Except Reserved Instr} {r : Reserved} {i : Instr} :
    (if p then x else .error r) = .ok i ↔ p ∧ x = .ok i := by
  split <;> simp [*]

/-! ### The rows of the table -/

/-- `Row g fn s d i`: the word with these fields is command `i`. One constructor per group of 30_encoding.md R45 to
R51. -/
inductive Row : BitVec 4 → BitVec 4 → BitVec 4 → BitVec 4 → Instr → Prop
  | arith {fn s : BitVec 4} {f : Fmt} {i : Instr} :
      fmtOfCode s = some f → arithInstr fn f = some i → Row 0#4 fn s s i
  | cmp {fn s : BitVec 4} {f : Fmt} {i : Instr} :
      fmtOfCode s = some f → cmpInstr fn f = some i → Row 1#4 fn s 15#4 i
  | cvtFF {s d : BitVec 4} {src dst : Fmt} {i : Instr} :
      fmtOfCode s = some src → fmtOfCode d = some dst → cvtFFInstr src dst = some i → Row 2#4 0#4 s d i
  | cvtIF {s d : BitVec 4} {src : IntTy} {dst : Fmt} :
      intOfCode s = some src → fmtOfCode d = some dst → Row 3#4 0#4 s d (cvtIFInstr src dst)
  | cvtFI {fn s d : BitVec 4} {src : Fmt} {dst : IntTy} {i : Instr} :
      fmtOfCode s = some src → intOfCode d = some dst → cvtFIInstr fn src dst = some i → Row 4#4 fn s d i
  | codec {fn s : BitVec 4} {f : Fmt} {i : Instr} :
      fmtOfCode s = some f → codecInstr fn f = some i → Row 5#4 fn s 15#4 i

theorem encode_arithInstr (f : Fmt) :
    ∀ fn, ∀ i ∈ arithInstr fn f, encode i = wordOf 0#4 fn (fmtCode f) (fmtCode f) := by
  cases f <;> decide

theorem encode_cmpInstr (f : Fmt) : ∀ fn, ∀ i ∈ cmpInstr fn f, encode i = wordOf 1#4 fn (fmtCode f) 15#4 := by
  cases f <;> decide

theorem encode_cvtFFInstr (src dst : Fmt) :
    ∀ i ∈ cvtFFInstr src dst, encode i = wordOf 2#4 0#4 (fmtCode src) (fmtCode dst) := by
  cases src <;> cases dst <;> decide

theorem encode_cvtIFInstr (src : IntTy) (dst : Fmt) :
    encode (cvtIFInstr src dst) = wordOf 3#4 0#4 (intCode src) (fmtCode dst) := by
  cases src <;> cases dst <;> rfl

theorem encode_cvtFIInstr (src : Fmt) (dst : IntTy) :
    ∀ fn, ∀ i ∈ cvtFIInstr fn src dst, encode i = wordOf 4#4 fn (fmtCode src) (intCode dst) := by
  cases src <;> cases dst <;> decide

theorem encode_codecInstr (f : Fmt) : ∀ fn, ∀ i ∈ codecInstr fn f, encode i = wordOf 5#4 fn (fmtCode f) 15#4 := by
  cases f <;> decide

/-- The fields of a command's row make up the command's word. -/
theorem Row.encode_eq {g fn s d : BitVec 4} {i : Instr} (h : Row g fn s d i) : encode i = wordOf g fn s d := by
  cases h with
  | arith hs h =>
    rw [eq_fmtCode_of_fmtOfCode hs]
    exact encode_arithInstr _ _ _ h
  | cmp hs h =>
    rw [eq_fmtCode_of_fmtOfCode hs]
    exact encode_cmpInstr _ _ _ h
  | cvtFF hs hd h =>
    rw [eq_fmtCode_of_fmtOfCode hs, eq_fmtCode_of_fmtOfCode hd]
    exact encode_cvtFFInstr _ _ _ h
  | cvtIF hs hd =>
    rw [eq_intCode_of_intOfCode hs, eq_fmtCode_of_fmtOfCode hd]
    exact encode_cvtIFInstr _ _
  | cvtFI hs hd h =>
    rw [eq_fmtCode_of_fmtOfCode hs, eq_intCode_of_intOfCode hd]
    exact encode_cvtFIInstr _ _ _ _ h
  | codec hs h =>
    rw [eq_fmtCode_of_fmtOfCode hs]
    exact encode_codecInstr _ _ _ h

/-! ### Decoder and encoder -/

/-- What the decoder accepts lies in a row of the table: each `case` of 30_encoding.md R58 checks the fields that its
row fixes. -/
theorem row_of_decode {P : Config.Params} {w : Word16} {i : Instr} (h : decode P w = .ok i) :
    Row (w.extractLsb' 12 4) (w.extractLsb' 8 4) (w.extractLsb' 4 4) (w.extractLsb' 0 4) i := by
  unfold decode at h
  dsimp only at h
  generalize w.extractLsb' 12 4 = g, w.extractLsb' 8 4 = fn, w.extractLsb' 4 4 = s, w.extractLsb' 0 4 = d at h ⊢
  split at h
  next hg =>
    obtain rfl : g = 0#4 := BitVec.eq_of_toNat_eq hg
    split at h
    · cases h
    next f hs =>
      obtain ⟨rfl, hi⟩ := ite_error_eq_ok_iff.mp h
      exact .arith hs (orReserved_eq_ok_iff.mp hi)
  next hg =>
    obtain rfl : g = 1#4 := BitVec.eq_of_toNat_eq hg
    split at h
    · cases h
    split at h
    · cases h
    next f hs =>
      obtain ⟨rfl, hi⟩ := ite_error_eq_ok_iff.mp h
      exact .cmp hs (orReserved_eq_ok_iff.mp hi)
  next hg =>
    obtain rfl : g = 2#4 := BitVec.eq_of_toNat_eq hg
    split at h
    · cases h
    · cases h
    next src dst hs hd =>
      obtain ⟨rfl, hi⟩ := ite_error_eq_ok_iff.mp h
      exact .cvtFF hs hd (orReserved_eq_ok_iff.mp hi)
  next hg =>
    obtain rfl : g = 3#4 := BitVec.eq_of_toNat_eq hg
    split at h
    · cases h
    · cases h
    next src dst hs hd =>
      obtain ⟨rfl, hi⟩ := ite_error_eq_ok_iff.mp h
      cases hi
      exact .cvtIF hs hd
  next hg =>
    obtain rfl : g = 4#4 := BitVec.eq_of_toNat_eq hg
    split at h
    · cases h
    · cases h
    next src dst hs hd => exact .cvtFI hs hd (orReserved_eq_ok_iff.mp h)
  next hg =>
    obtain rfl : g = 5#4 := BitVec.eq_of_toNat_eq hg
    split at h
    · cases h
    next f hs =>
      obtain ⟨rfl, hi⟩ := ite_error_eq_ok_iff.mp h
      exact .codec hs (orReserved_eq_ok_iff.mp hi)
  · cases h

/-- Whatever the parameters, a word that decodes to a command is that command's word. -/
theorem eq_encode_of_decode {P : Config.Params} {w : Word16} {i : Instr} (h : decode P w = .ok i) : w = encode i :=
  calc w = wordOf (w.extractLsb' 12 4) (w.extractLsb' 8 4) (w.extractLsb' 4 4) (w.extractLsb' 0 4) :=
        (wordOf_fields w).symm
    _ = encode i := (row_of_decode h).encode_eq.symm

theorem decode_encode (i : Instr) : decode Config.fpe1 (encode i) = .ok i := by
  cases i <;> rfl

/-- Settles O3: an accepted word lies in a row of the table, and each row's word decodes to its command. -/
theorem decoderAcceptsExactlyTheTable : Obligations.DecoderAcceptsExactlyTheTable := by
  intro w i
  constructor
  · exact eq_encode_of_decode
  · rintro rfl
    exact decode_encode i

/-- Settles O4: seven words of the table, and a word of group 0 whose two formats differ. -/
theorem wordsOfEachGroupDecode : Obligations.WordsOfEachGroupDecode :=
  ⟨decode_encode .fsubX, decode_encode .frintD, decode_encode .fcmpsX, decode_encode .fcvtDX, decode_encode .fcvtSL,
    decode_encode .fcvttWD, decode_encode .fsnanS, rfl⟩

theorem decode_of_cmp_absent {P : Config.Params} {w : Word16} (hcmp : P.hasCmp = false)
    (hgrp : w.extractLsb' 12 4 = 1#4) : decode P w = .error .groupAbsent := by
  simp [decode, hgrp, hcmp]

/-- Outside group 1 the decoder reads no parameter: HAS_CMP stands in the `case` of group 1 alone. -/
theorem decode_congr_of_not_cmp (P Q : Config.Params) {w : Word16} (hgrp : w.extractLsb' 12 4 ≠ 1#4) :
    decode P w = decode Q w := by
  have hne : (w.extractLsb' 12 4).toNat ≠ 1 := fun h => hgrp (BitVec.eq_of_toNat_eq h)
  unfold decode
  dsimp only
  split
  · rfl
  next hg => exact absurd hg hne
  all_goals rfl

/-- Settles O5: group 1 is checked for presence first, and no other group is. -/
theorem withoutTheComparisonGroupOnlyItsWordsChange : Obligations.WithoutTheComparisonGroupOnlyItsWordsChange := by
  intro P w
  split
  next hgrp => exact decode_of_cmp_absent rfl hgrp
  next hgrp => exact decode_congr_of_not_cmp _ _ hgrp

end Sys2Proof
end

section
/-! PROOFS. What one step answers on each transaction of the host, by register number (30_encoding.md R40, R44, R57). -/

namespace Sys2Proof.Machine

/-! ### The command step -/

/-- Settles O2: what the command step runs is a word of the table, so every other word is refused. -/
theorem reservedWordsAreRefused : Obligations.ReservedWordsAreRefused := by
  intro s w hw
  obtain ⟨i, hdecode, -⟩ | ⟨why, -, hrefused⟩ := commandStep_cases w s
  · exact absurd (eq_encode_of_decode hdecode).symm (hw i)
  · exact ⟨why, hrefused⟩

theorem commandStep_of_decode {w : Word16} {i : Instr} (s : State) (h : decode Config.fpe1 w = .ok i) :
    commandStep w s = exec i s := by
  simp [commandStep, h]

/-- Settles O1: a write of CMD is the command step on the word carried. -/
theorem stepRunsTheDecodedCommand : Obligations.StepRunsTheDecodedCommand := by
  intro s v rest i hscript hdecode _
  exact (step_eq_perform hscript).trans (commandStep_of_decode _ hdecode)

/-- Settles O10: a ready command completes with the result of its family; a command that completes was ready. -/
theorem everyReadyCommandCompletes : Obligations.EveryReadyCommandCompletes := by
  intro i s
  constructor
  · intro hready
    obtain ⟨c, hr⟩ := hready.exists_context
    obtain ⟨op, hop⟩ := exists_computes i
    exact ⟨_, hop.completes hr⟩
  · intro hnot
    obtain hrefused | ⟨c, op, hr, -, -⟩ := exec_cases i s
    · exact hrefused
    · exact absurd hr.ready hnot

/-! ### Reads and writes by register number -/

section
variable {s : State} {rest : List HostEvent} {n : Nat} {v : Word80}

theorem step_rd_of_ok (hscript : s.script = .rd n :: rest) (hread : readRegister n { s with script := rest } = .ok v) :
    step s = .next { s with script := rest, readings := ⟨n, v⟩ :: s.readings } := by
  rw [step_eq_perform hscript, perform, hostRead, hread]
  rfl

theorem step_rd_of_error {why : Refusal} (hscript : s.script = .rd n :: rest)
    (hread : readRegister n { s with script := rest } = .error why) : step s = .refused why := by
  rw [step_eq_perform hscript, perform, hostRead, hread]

theorem readRegister_opa_of_held (h : s.opaHeld = true) : readRegister 0 s = .ok s.opa := by simp [readRegister, h]

theorem readRegister_opb_of_held (h : s.opbHeld = true) : readRegister 1 s = .ok s.opb := by simp [readRegister, h]

theorem readRegister_res_of_held (h : s.resHeld = true) : readRegister 2 s = .ok s.res := by simp [readRegister, h]

theorem readRegister_of_six_le (h : 6 ≤ n) : readRegister n s = .error .noSuchRegister := by
  obtain ⟨k, rfl⟩ := Nat.exists_eq_add_of_le' h
  rfl

theorem hostWrite_of_six_le (h : 6 ≤ n) : hostWrite n v s = .refused .noSuchRegister := by
  obtain ⟨k, rfl⟩ := Nat.exists_eq_add_of_le' h
  rfl

/-- A write of the value read last is the write of that value (30_encoding.md R57). -/
theorem step_wrRead {r : Reading} {older : List Reading} (hread : s.readings = r :: older)
    (hscript : s.script = .wrRead n :: rest) : step s = hostWrite n r.value { s with script := rest } :=
  (step_eq_perform hscript).trans (perform_wrRead_of_cons hread)

end

/-- Settles O6: each transaction is taken off the script, and the access to its register performed. -/
theorem hostAccessesFollowTheRegisterMap : Obligations.HostAccessesFollowTheRegisterMap := by
  intro s rest n v
  refine ⟨step_of_empty, ?wr0, ?wr1, ?wr2, ?wr3, ?wr4, ?wrNone, ?rd0, ?rd1, ?rd2, ?rd3, ?rd4, ?rd5, ?rdNone, ?wr5,
    ?reset, ?rd0Unwritten, ?rd1Unwritten, ?rd2Unwritten, ?wrReadNone, ?wrRead⟩
  case wr0 | wr1 | wr2 | wr3 | wr4 | wr5 | reset => exact step_eq_perform
  case wrNone => exact fun hn hscript => (step_eq_perform hscript).trans (hostWrite_of_six_le hn)
  case rd0 => exact fun ha hscript => step_rd_of_ok hscript (readRegister_opa_of_held ha)
  case rd1 => exact fun hb hscript => step_rd_of_ok hscript (readRegister_opb_of_held hb)
  case rd2 => exact fun hres hscript => step_rd_of_ok hscript (readRegister_res_of_held hres)
  case rd3 | rd4 => exact fun hscript => step_rd_of_ok hscript rfl
  case rd5 => exact fun hscript => step_rd_of_error hscript rfl
  case rdNone => exact fun hn hscript => step_rd_of_error hscript (readRegister_of_six_le hn)
  case rd0Unwritten | rd1Unwritten => exact fun _ hscript => ⟨_, step_rd_of_ok hscript rfl⟩
  case rd2Unwritten => exact fun hres hscript => (step_eq_perform hscript).trans (hostRead_res_of_unwritten hres)
  case wrReadNone => exact fun hnone hscript => (step_eq_perform hscript).trans (perform_wrRead_of_none hnone)
  case wrRead =>
    intro r older hread hscript
    calc step s = hostWrite n r.value { s with script := rest } := step_wrRead hread hscript
      _ = step { s with script := .wr n r.value :: rest } := rfl

/-! ### MOVR -/

theorem runsTo_two {s t u : State} (h₁ : step s = .next t) (h₂ : step t = .next u) : RunsTo 2 s u := by
  simp [RunsTo, Host.Core.run, core, h₁, h₂]

/-- MOVR reads RES and writes the value read: where that write goes through, it is the end of the two transactions. -/
theorem runsTo_movr {s t : State} {rest : List HostEvent} {n : Nat} (hres : s.resHeld = true)
    (hscript : s.script = movr n ++ rest)
    (hwrite : hostWrite n s.res { s with script := rest, readings := ⟨2, s.res⟩ :: s.readings } = .next t) :
    RunsTo 2 s t :=
  runsTo_two (step_rd_of_ok hscript (readRegister_res_of_held hres)) ((step_wrRead rfl rfl).trans hwrite)

/-- Settles O22: MOVR to register 0 and to register 1. -/
theorem movrCopiesTheResult : Obligations.MovrCopiesTheResult := by
  intro s rest hres
  exact ⟨fun hscript => runsTo_movr hres hscript rfl, fun hscript => runsTo_movr hres hscript rfl⟩

end Sys2Proof.Machine
end

section
/-! PROOFS. The fields of an operand in the bits of its register, and the codec commands FCLASS and FSNAN (40_codec.md
R64 to R69, R80 to R86). -/

namespace Sys2Proof.Machine

/-! ### The fields of an operand are the bits of its register -/

theorem getLsbD_fltOperand {f : Fmt} {j : Nat} (h : j < fmtBits f) (a : Word80) :
    (fltOperand f a).getLsbD j = a.getLsbD j := by
  have h80 : fmtBits f ≤ 80 := by cases f <;> decide
  simp [fltOperand, h, h.trans_le h80]

theorem extractLsb'_fltOperand {f : Fmt} {lo n : Nat} (h : lo + n ≤ fmtBits f) (a : Word80) :
    (fltOperand f a).extractLsb' lo n = a.extractLsb' lo n := by
  apply BitVec.eq_of_getLsbD_eq
  intro j hj
  rw [BitVec.getLsbD_extractLsb', BitVec.getLsbD_extractLsb', getLsbD_fltOperand (by omega)]

theorem signOf_fltOperand (f : Fmt) (a : Word80) : signOf f (fltOperand f a) = signOf f a :=
  getLsbD_fltOperand (by cases f <;> decide) a

theorem expOf_fltOperand (f : Fmt) (a : Word80) : expOf f (fltOperand f a) = expOf f a :=
  congrArg BitVec.toNat (extractLsb'_fltOperand (by cases f <;> decide) a)

theorem fracOf_fltOperand (f : Fmt) (a : Word80) : fracOf f (fltOperand f a) = fracOf f a :=
  congrArg BitVec.toNat (extractLsb'_fltOperand (by cases f <;> decide) a)

theorem fltOperand_X (a : Word80) : fltOperand .X a = a := by
  simp [fltOperand, fmtBits]

theorem expOf_eq_zero_iff (f : Fmt) (a : Word80) : expOf f a = 0 ↔ a.extractLsb' (sigBits f) (expBits f) = 0 :=
  BitVec.toNat_inj (y := 0)

theorem expOf_eq_expMax_iff (f : Fmt) (a : Word80) :
    expOf f a = expMax f ↔ a.extractLsb' (sigBits f) (expBits f) = BitVec.allOnes (expBits f) := by
  rw [expOf, expMax, ← BitVec.toNat_allOnes, BitVec.toNat_inj]

theorem fracOf_eq_zero_iff (f : Fmt) (a : Word80) : fracOf f a = 0 ↔ a.extractLsb' 0 (fracBits f) = 0 :=
  BitVec.toNat_inj (y := 0)

theorem sigOf_eq_zero_iff (f : Fmt) (a : Word80) : sigOf f a = 0 ↔ a.extractLsb' 0 (sigBits f) = 0 :=
  BitVec.toNat_inj (y := 0)

/-! ### Classes and NaNs -/

theorem classify_fltOperand (f : Fmt) (a : Word80) : classify f (fltOperand f a) = classify f a := by
  cases f with
  | X => rw [fltOperand_X]
  | S | D => simp only [classify, expOf_fltOperand, fracOf_fltOperand, signOf_fltOperand]

theorem unsupported_of_ne_X {f : Fmt} (hf : f ≠ .X) (a : Word80) : unsupported f a = false := by
  cases f with
  | X => exact absurd rfl hf
  | S | D => rfl

theorem unsupported_X_iff (a : Word80) : unsupported .X a = true ↔ expOf .X a ≠ 0 ∧ jBit a = false := by
  simp [unsupported]

/-- A NaN of binary32 or binary64 is the all-ones exponent with a nonzero fraction (40_codec.md R65). -/
theorem isNaN_iff_of_ne_X {f : Fmt} (hf : f ≠ .X) (a : Word80) :
    isNaN f a = true ↔ expOf f a = expMax f ∧ fracOf f a ≠ 0 := by
  have hmax : 0 ≠ expMax f := by cases f <;> decide
  cases f with
  | X => exact absurd rfl hf
  | S | D =>
    simp only [isNaN, classify]
    split_ifs <;> simp_all

/-- A NaN of extended80 is an unsupported value, or the all-ones exponent with a nonzero fraction (R66). -/
theorem isNaN_X_iff (a : Word80) :
    isNaN .X a = true ↔ unsupported .X a = true ∨ expOf .X a = expMax .X ∧ fracOf .X a ≠ 0 := by
  have hmax : 0 ≠ expMax .X := by decide
  rw [unsupported_X_iff]
  simp only [isNaN, classify]
  split_ifs <;> simp_all

theorem and_quietBit_eq_zero_iff (f : Fmt) (a : Word80) :
    a &&& quietBit f = 0#80 ↔ a.getLsbD (fracBits f - 1) = false := by
  have hq : quietBit f = BitVec.twoPow 80 (fracBits f - 1) := by cases f <;> decide
  have hne : quietBit f ≠ 0#80 := by cases f <;> decide
  rw [hq] at hne ⊢
  rw [BitVec.and_twoPow]
  split <;> simp_all

/-- A signaling NaN is an unsupported value, or a NaN whose quiet bit is clear (R69). -/
theorem isSNaN_iff (f : Fmt) (a : Word80) :
    isSNaN f a = true ↔ unsupported f a = true ∨ isNaN f a = true ∧ a.getLsbD (fracBits f - 1) = false := by
  rw [← and_quietBit_eq_zero_iff]
  simp [isSNaN]

theorem isNaN_fltOperand (f : Fmt) (a : Word80) : isNaN f (fltOperand f a) = isNaN f a :=
  congrArg (· == FloatClass.nan) (classify_fltOperand f a)

theorem unsupported_fltOperand (f : Fmt) (a : Word80) : unsupported f (fltOperand f a) = unsupported f a := by
  cases f with
  | X => rw [fltOperand_X]
  | S | D => rfl

theorem isSNaN_fltOperand (f : Fmt) (a : Word80) : isSNaN f (fltOperand f a) = isSNaN f a := by
  rw [Bool.eq_iff_iff, isSNaN_iff, isSNaN_iff, unsupported_fltOperand, isNaN_fltOperand,
    getLsbD_fltOperand (by cases f <;> decide)]

/-! ### FCLASS -/

theorem completes_fclass {f : Fmt} {s : State} (h : Ready (fclassI f) s) :
    Completes (fclassI f) s { value := (classify f s.opa).code, flags := 0 } := by
  obtain ⟨c, hr⟩ := h.exists_context
  rw [← classify_fltOperand]
  exact (Computes.fclass f).completes hr

theorem code_classify_of_ne_X {f : Fmt} (hf : f ≠ .X) (a : Word80) :
    (classify f a).code =
      if a.extractLsb' (sigBits f) (expBits f) = 0 then (if a.extractLsb' 0 (fracBits f) = 0 then 0 else 4)
      else if a.extractLsb' (sigBits f) (expBits f) = BitVec.allOnes (expBits f) then
        (if a.extractLsb' 0 (fracBits f) = 0 then (if a.getLsbD (fmtBits f - 1) then 2 else 3) else 1)
      else 5 := by
  simp only [← expOf_eq_zero_iff, ← expOf_eq_expMax_iff, ← fracOf_eq_zero_iff]
  cases f with
  | X => exact absurd rfl hf
  | S | D =>
    simp only [classify, apply_ite FloatClass.code]
    rfl

theorem code_classify_X (a : Word80) :
    (classify .X a).code =
      if a.extractLsb' 64 15 = 0 then (if a.extractLsb' 0 64 = 0 then 0 else 4)
      else if a.getLsbD 63 = false then 1
      else if a.extractLsb' 64 15 = 0x7FFF#15 then
        (if a.extractLsb' 0 63 = 0 then (if a.getLsbD 79 then 2 else 3) else 1)
      else 5 := by
  simp only [classify, apply_ite FloatClass.code, expOf_eq_zero_iff, sigOf_eq_zero_iff, expOf_eq_expMax_iff,
    fracOf_eq_zero_iff]
  rfl

/-- Settles O27: FCLASS writes the code of the class, and the class is a decision on the bits. -/
theorem fclassWritesTheClassOfTheBits : Obligations.FclassWritesTheClassOfTheBits := by
  intro s
  refine ⟨fun h => ?single, fun h => ?double, fun h => ?extended⟩
  case single => exact code_classify_of_ne_X (f := .S) (by decide) s.opa ▸ completes_fclass (f := .S) h
  case double => exact code_classify_of_ne_X (f := .D) (by decide) s.opa ▸ completes_fclass (f := .D) h
  case extended => exact code_classify_X s.opa ▸ completes_fclass (f := .X) h

/-! ### FSNAN -/

theorem completes_fsnan {f : Fmt} {s : State} (h : Ready (fsnanI f) s) {p : Prop} [Decidable p]
    (hp : isSNaN f s.opa = true ↔ p) :
    Completes (fsnanI f) s { value := if p then 1 else 0, flags := 0 } := by
  obtain ⟨c, hr⟩ := h.exists_context
  have hvalue : boolResult (isSNaN f (fltOperand f s.opa)) = if p then 1 else 0 := by
    rw [isSNaN_fltOperand, boolResult]
    exact if_congr hp rfl rfl
  exact hvalue ▸ (Computes.fsnan f).completes hr

theorem isSNaN_iff_of_ne_X {f : Fmt} (hf : f ≠ .X) (a : Word80) :
    isSNaN f a = true ↔ a.extractLsb' (sigBits f) (expBits f) = BitVec.allOnes (expBits f) ∧
      a.extractLsb' 0 (fracBits f) ≠ 0 ∧ a.getLsbD (fracBits f - 1) = false := by
  rw [isSNaN_iff, unsupported_of_ne_X hf, isNaN_iff_of_ne_X hf, expOf_eq_expMax_iff, Ne, fracOf_eq_zero_iff]
  simp [and_assoc]

theorem isSNaN_X_iff (a : Word80) :
    isSNaN .X a = true ↔ (a.extractLsb' 64 15 ≠ 0 ∧ a.getLsbD 63 = false) ∨
      (a.extractLsb' 64 15 = 0x7FFF#15 ∧ a.extractLsb' 0 63 ≠ 0 ∧ a.getLsbD 62 = false) := by
  have hunsup : unsupported .X a = true ↔ a.extractLsb' 64 15 ≠ 0 ∧ a.getLsbD 63 = false := by
    rw [unsupported_X_iff, Ne, expOf_eq_zero_iff]
    rfl
  have hnan : expOf .X a = expMax .X ∧ fracOf .X a ≠ 0 ↔
      a.extractLsb' 64 15 = 0x7FFF#15 ∧ a.extractLsb' 0 63 ≠ 0 := by
    rw [expOf_eq_expMax_iff, Ne, fracOf_eq_zero_iff]
    rfl
  rw [isSNaN_iff, isNaN_X_iff, hunsup, hnan]
  change _ ∨ _ ∧ a.getLsbD 62 = false ↔ _
  tauto

/-- Settles O28, by what a signaling NaN is in the bits of each format. -/
theorem fsnanTellsSignalingNaNs : Obligations.FsnanTellsSignalingNaNs := by
  intro s
  refine ⟨fun h => ?single, fun h => ?double, fun h => ?extended⟩
  case single => exact completes_fsnan (f := .S) h (isSNaN_iff_of_ne_X (by decide) s.opa)
  case double => exact completes_fsnan (f := .D) h (isSNaN_iff_of_ne_X (by decide) s.opa)
  case extended => exact completes_fsnan (f := .X) h (isSNaN_X_iff s.opa)

end Sys2Proof.Machine
end

section
/-! PROOFS. Unsupported operands and NaNs come before every other check (40_codec.md R67, R77 to R79; 60_exceptions.md
R248). -/

namespace Sys2Proof.Machine

theorem Computes.completes_of_eq {i : Instr} {src dst : OpType} {two : Bool}
    {op : Context → Word80 → Word80 → Result} {s : State} {c : Context} {r : Result} (h : Computes i src dst two op)
    (hr : ReadyUnder i s c) (heq : op c s.opa s.opb = r) : Completes i s r := heq ▸ h.completes hr

/-! ### The first two checks of each core -/

/-- The first two checks of R79 in a two-operand arithmetic command of format `f`: unsupported operands, then NaNs. -/
structure ChecksTwoNaNs (f : Fmt) (op : Context → Word80 → Word80 → Result) : Prop where
  of_unsupported {c : Context} {a b : Word80} :
    unsupported f (fltOperand f a) = true ∨ unsupported f (fltOperand f b) = true →
      op c a b = invalidResult Config.fpe1 f
  of_nan {c : Context} {a b : Word80} :
    unsupported f (fltOperand f a) = false → unsupported f (fltOperand f b) = false →
    isNaN f (fltOperand f a) = true ∨ isNaN f (fltOperand f b) = true →
      op c a b = propagateNaN c f (fltOperand f a) (fltOperand f b)

/-- The first two checks of R79 in a one-operand arithmetic command of format `f`. -/
structure ChecksOneNaN (f : Fmt) (op : Context → Word80 → Word80 → Result) : Prop where
  of_unsupported {c : Context} {a b : Word80} :
    unsupported f (fltOperand f a) = true → op c a b = invalidResult Config.fpe1 f
  of_nan {c : Context} {a b : Word80} :
    unsupported f (fltOperand f a) = false → isNaN f (fltOperand f a) = true →
      op c a b = quietNaNResult f (fltOperand f a)

theorem faddOp_checksTwoNaNs (f : Fmt) : ChecksTwoNaNs f (faddOp f) where
  of_unsupported h := by simp [faddOp, addCore, h]
  of_nan ha hb h := by simp [faddOp, addCore, ha, hb, h]

theorem fsubOp_checksTwoNaNs (f : Fmt) : ChecksTwoNaNs f (fsubOp f) where
  of_unsupported h := by simp [fsubOp, addCore, h]
  of_nan ha hb h := by simp [fsubOp, addCore, ha, hb, h]

theorem fmulOp_checksTwoNaNs (f : Fmt) : ChecksTwoNaNs f (fmulOp f) where
  of_unsupported h := by simp [fmulOp, mulCore, h]
  of_nan ha hb h := by simp [fmulOp, mulCore, ha, hb, h]

theorem fdivOp_checksTwoNaNs (f : Fmt) : ChecksTwoNaNs f (fdivOp f) where
  of_unsupported h := by simp [fdivOp, divCore, h]
  of_nan ha hb h := by simp [fdivOp, divCore, ha, hb, h]

theorem fsqrtOp_checksOneNaN (f : Fmt) : ChecksOneNaN f (fun c a _ => fsqrtOp f c a) where
  of_unsupported h := by simp [fsqrtOp, sqrtCore, h]
  of_nan ha h := by simp [fsqrtOp, sqrtCore, ha, h]

theorem frintOp_checksOneNaN (f : Fmt) : ChecksOneNaN f (fun c a _ => frintOp f c a) where
  of_unsupported h := by simp [frintOp, rintCore, h]
  of_nan ha h := by simp [frintOp, rintCore, ha, h]

/-- The four two-operand arithmetic commands make the same first two checks. -/
theorem computes_checking_two {op : Fmt → Instr} (hop : op ∈ [faddI, fsubI, fmulI, fdivI]) (f : Fmt) :
    ∃ g, Computes (op f) (.flt f) (.flt f) true g ∧ ChecksTwoNaNs f g := by
  simp only [List.mem_cons, List.not_mem_nil, or_false] at hop
  obtain rfl | rfl | rfl | rfl := hop
  · exact ⟨_, .fadd f, faddOp_checksTwoNaNs f⟩
  · exact ⟨_, .fsub f, fsubOp_checksTwoNaNs f⟩
  · exact ⟨_, .fmul f, fmulOp_checksTwoNaNs f⟩
  · exact ⟨_, .fdiv f, fdivOp_checksTwoNaNs f⟩

/-- So do the two one-operand ones. -/
theorem computes_checking_one {op : Fmt → Instr} (hop : op ∈ [fsqrtI, frintI]) (f : Fmt) :
    ∃ g, Computes (op f) (.flt f) (.flt f) false g ∧ ChecksOneNaN f g := by
  simp only [List.mem_cons, List.not_mem_nil, or_false] at hop
  obtain rfl | rfl := hop
  · exact ⟨_, .fsqrt f, fsqrtOp_checksOneNaN f⟩
  · exact ⟨_, .frint f, frintOp_checksOneNaN f⟩

/-! ### The NaN rules -/

section
variable {c : Context} {f : Fmt} {a b : Word80}

theorem pickNaN_of_second_not_nan (ha : isNaN f a = true) (hb : isNaN f b = false) : pickNaN c f a b = a := by
  unfold pickNaN
  split <;> simp [ha, hb]

theorem pickNaN_of_first_not_nan (ha : isNaN f a = false) : pickNaN c f a b = b := by
  unfold pickNaN
  split <;> simp [ha]

theorem pickNaN_of_firstOperand (hmode : c.nanMode = .firstOperand) (ha : isNaN f a = true) : pickNaN c f a b = a := by
  simp [pickNaN, hmode, ha]

theorem pickNaN_of_largestSignificand (hmode : c.nanMode = .largestSignificand) (ha : isNaN f a = true)
    (hb : isNaN f b = true) : pickNaN c f a b = if sigOf f a < sigOf f b then b else a := by
  simp [pickNaN, hmode, ha, hb]

end

/-- Settles O31: the four commands pass a NaN operand to the one NaN rule, whose pick is that of the model. -/
theorem twoOperandNaNsPropagate : Obligations.TwoOperandNaNsPropagate := by
  intro op hop f s c hr hua hub hnan
  obtain ⟨g, hg, hchecks⟩ := computes_checking_two hop f
  refine ⟨pickNaN c f (opA f s) (opB f s), hg.completes_of_eq hr (hchecks.of_nan hua hub hnan), ?onlyFirst,
    pickNaN_of_first_not_nan, ?both⟩
  case onlyFirst =>
    intro hb
    have ha : isNaN f (opA f s) = true := hnan.resolve_right (by simp [hb])
    exact pickNaN_of_second_not_nan ha hb
  case both =>
    exact fun ha hb =>
      ⟨fun hmode => pickNaN_of_firstOperand hmode ha, fun hmode => pickNaN_of_largestSignificand hmode ha hb⟩

/-- Settles O32: both commands pass a supported NaN to the one-operand NaN rule. -/
theorem oneOperandNaNsAreQuieted : Obligations.OneOperandNaNsAreQuieted := by
  intro op hop f s hready hu hnan
  obtain ⟨c, hr⟩ := hready.exists_context
  obtain ⟨g, hg, hchecks⟩ := computes_checking_one hop f
  exact hg.completes_of_eq hr (hchecks.of_nan hu hnan)

/-! ### Unsupported operands -/

theorem cmpCore_of_unsupported {f : Fmt} {a b : Word80} (h : unsupported f a = true ∨ unsupported f b = true)
    (sg : Bool) : cmpCore f a b sg = { rel := .unordered, flags := 0x0001#16 } := by
  simp only [cmpCore, Bool.or_eq_true, if_pos h]
  rfl

theorem predicateOp_of_unsupported {f : Fmt} {a b : Word80}
    (h : unsupported f (fltOperand f a) = true ∨ unsupported f (fltOperand f b) = true) (holds : Relation → Bool)
    (sg : Bool) : predicateOp holds sg f a b = { value := boolResult (holds .unordered), flags := 0x0001#16 } := by
  simp only [predicateOp, cmpCore_of_unsupported h]

theorem orderingOp_of_unsupported {f : Fmt} {a b : Word80}
    (h : unsupported f (fltOperand f a) = true ∨ unsupported f (fltOperand f b) = true) (sg : Bool) :
    orderingOp sg f a b = { value := 3#80, flags := 0x0001#16 } := by
  simp only [orderingOp, cmpCore_of_unsupported h]
  rfl

/-- An unsupported operand makes every predicate command of its format see the relation 'unordered'. -/
theorem completes_predicate_of_unsupported {i : Instr} {f : Fmt} {s : State} {c : Context} {sg : Bool}
    {holds : Relation → Bool} (hi : Computes i (.flt f) .code true (fun _ => predicateOp holds sg f))
    (hr : ReadyUnder i s c) (h : unsupported f (opA f s) = true ∨ unsupported f (opB f s) = true) :
    Completes i s { value := boolResult (holds .unordered), flags := 0x0001 } :=
  hi.completes_of_eq hr (predicateOp_of_unsupported h holds sg)

/-- The comparisons of OPA and OPB need the same of the state, whatever they ask of the relation. -/
theorem ReadyUnder.of_comparison {i j : Instr} {s : State} {c : Context} (h : ReadyUnder i s c)
    (hi : readsOpb i = true) : ReadyUnder j s c := by
  obtain ⟨hc, ha, hb⟩ := h
  exact ⟨hc, ha, fun _ => hb hi⟩

theorem readsOpb_fcmpI (sg : Bool) (f : Fmt) : readsOpb (fcmpI sg f) = true := by
  cases sg <;> cases f <;> rfl

section
variable {s : State}

theorem arithmetic_of_unsupported (h : unsupported .X (opA .X s) = true ∨ unsupported .X (opB .X s) = true)
    {op : Fmt → Instr} (hop : op ∈ [faddI, fsubI, fmulI, fdivI]) (hready : Ready (op .X) s) :
    Completes (op .X) s { value := defaultNaN Config.fpe1 .X, flags := 0x0001 } := by
  obtain ⟨c, hr⟩ := hready.exists_context
  obtain ⟨g, hg, hchecks⟩ := computes_checking_two hop .X
  exact hg.completes_of_eq hr (hchecks.of_unsupported h)

theorem comparison_of_unsupported (h : unsupported .X (opA .X s) = true ∨ unsupported .X (opB .X s) = true)
    {sg : Bool} (hready : Ready (fcmpI sg .X) s) :
    Completes (fcmpI sg .X) s { value := 3, flags := 0x0001 } ∧
    Completes (funI sg .X) s { value := 1, flags := 0x0001 } ∧
    ∀ op ∈ [feqI sg, fltI sg, fleI sg], Completes (op .X) s { value := 0, flags := 0x0001 } := by
  obtain ⟨c, hr⟩ := hready.exists_context
  have hother {j : Instr} : ReadyUnder j s c := hr.of_comparison (readsOpb_fcmpI sg .X)
  refine ⟨(Computes.fcmp sg .X).completes_of_eq hr (orderingOp_of_unsupported h sg),
    completes_predicate_of_unsupported (.funord sg .X) hother h, fun op hop => ?_⟩
  simp only [List.mem_cons, List.not_mem_nil, or_false] at hop
  obtain rfl | rfl | rfl := hop
  · exact completes_predicate_of_unsupported (.feq sg .X) hother h
  · exact completes_predicate_of_unsupported (.flt sg .X) hother h
  · exact completes_predicate_of_unsupported (.fle sg .X) hother h

theorem oneOperand_of_unsupported (h : unsupported .X (opA .X s) = true) {op : Fmt → Instr}
    (hop : op ∈ [fsqrtI, frintI]) (hready : Ready (op .X) s) :
    Completes (op .X) s { value := defaultNaN Config.fpe1 .X, flags := 0x0001 } := by
  obtain ⟨c, hr⟩ := hready.exists_context
  obtain ⟨g, hg, hchecks⟩ := computes_checking_one hop .X
  exact hg.completes_of_eq hr (hchecks.of_unsupported h)

theorem cvtFF_of_unsupported {src : Fmt} {a : Word80} (P : Config.Params) (c : Context) (dst : Fmt)
    (h : unsupported src a = true) : cvtFF P c src dst a = invalidResult P dst := by
  simp [cvtFF, h]

theorem cvtFI_of_unsupported {src : Fmt} {a : Word80} (P : Config.Params) (c : Context) (t : IntTy) (trunc : Bool)
    (h : unsupported src a = true) : cvtFI P c src t a trunc = invalidInt P t := by
  simp [cvtFI, h]

theorem floatConversion_of_unsupported (h : unsupported .X (opA .X s) = true) {dst : Fmt} {i : Instr}
    (hi : fcvtFFI .X dst = some i) (hready : Ready i s) :
    Completes i s { value := defaultNaN Config.fpe1 dst, flags := 0x0001 } := by
  obtain ⟨c, hr⟩ := hready.exists_context
  exact (Computes.fcvtFF hi).completes_of_eq hr (cvtFF_of_unsupported Config.fpe1 c dst h)

theorem integerConversion_of_unsupported (h : unsupported .X (opA .X s) = true) {trunc : Bool} {t : IntTy}
    (hready : Ready (fcvtFII trunc .X t) s) :
    Completes (fcvtFII trunc .X t) s { value := intIndefinite Config.fpe1 t, flags := 0x0001 } := by
  obtain ⟨c, hr⟩ := hready.exists_context
  exact (Computes.fcvtFI trunc .X t).completes_of_eq hr (cvtFI_of_unsupported Config.fpe1 c t trunc h)

end

/-- Settles O33, family by family: the check for unsupported operands is the first of each core. -/
theorem unsupportedOperandsAreInvalid : Obligations.UnsupportedOperandsAreInvalid := by
  intro s
  refine ⟨fun h => ⟨?arithmetic, ?comparison⟩, fun h => ⟨?oneOperand, ?floatConversion, ?integerConversion⟩⟩
  case arithmetic => exact fun op hop hready => arithmetic_of_unsupported h hop hready
  case comparison => exact fun sg hready => comparison_of_unsupported h hready
  case oneOperand => exact fun op hop hready => oneOperand_of_unsupported h hop hready
  case floatConversion => exact fun dst i hi hready => floatConversion_of_unsupported h hi hready
  case integerConversion => exact fun trunc t hready => integerConversion_of_unsupported h hready

end Sys2Proof.Machine
end

section
/-! PROOFS. Packing and unpacking of finite nonzero values (40_codec.md R72, R74, R76, R88): both are read off the
exponent field and the whole significand of the value. -/

namespace Sys2Proof.Machine

/-! ### Exact magnitudes `n * 2^k` -/

theorem scaled_lt_iff (n j : Nat) (k : Int) : (n : ℚ) * 2 ^ k < 2 ^ (k + j) ↔ n < 2 ^ j := by
  have hk : (0 : ℚ) < 2 ^ k := zpow_pos two_pos k
  rw [zpow_add₀ two_ne_zero, mul_comm, mul_lt_mul_iff_right₀ hk, zpow_natCast]
  exact_mod_cast Iff.rfl

theorem le_scaled_iff (n j : Nat) (k : Int) : (2 : ℚ) ^ (k + j) ≤ n * 2 ^ k ↔ 2 ^ j ≤ n := by
  rw [← not_lt, scaled_lt_iff, not_lt]

theorem scaled_pos_iff (n : Nat) (k : Int) : (0 : ℚ) < n * 2 ^ k ↔ 1 ≤ n := by
  rw [mul_pos_iff_of_pos_right (zpow_pos two_pos k), Nat.cast_pos]
  rfl

theorem bitlen_le_of_lt {n j : Nat} (h : n < 2 ^ j) : bitlen n ≤ j := by
  obtain rfl | hpos := Nat.eq_zero_or_pos n
  · simp
  · have hlt : bitlen n - 1 < j :=
      (Nat.pow_lt_pow_iff_right one_lt_two).mp ((two_pow_le_of_bitlen hpos).trans_lt h)
    omega

/-- A magnitude lies between two powers of two in one way. -/
theorem binade_unique {v : ℚ} {a b : Int} (ha : 2 ^ a ≤ v) (ha' : v < 2 ^ (a + 1)) (hb : 2 ^ b ≤ v)
    (hb' : v < 2 ^ (b + 1)) : a = b := by
  have hab : a < b + 1 := (zpow_lt_zpow_iff_right₀ one_lt_two).mp (ha.trans_lt hb')
  have hba : b < a + 1 := (zpow_lt_zpow_iff_right₀ one_lt_two).mp (hb.trans_lt ha')
  omega

/-- The exponent of `m * 2^q`, by the bit length of `m` (40_codec.md R74). -/
theorem binade_of_bitlen {m : Nat} (hm : 1 ≤ m) (q : Int) :
    (2 : ℚ) ^ (q + bitlen m - 1) ≤ m * 2 ^ q ∧ (m : ℚ) * 2 ^ q < 2 ^ (q + bitlen m - 1 + 1) := by
  have hpos := bitlen_pos hm
  have hexp : q + bitlen m - 1 = q + (bitlen m - 1 : Nat) := by omega
  rw [sub_add_cancel, scaled_lt_iff, hexp, le_scaled_iff]
  exact ⟨two_pow_le_of_bitlen hm, lt_two_pow_bitlen m⟩

/-- One magnitude in two descriptions has one exponent. -/
theorem exponent_eq_of_scaled_eq {m n : Nat} {q k : Int} (hm : 1 ≤ m) (hn : 1 ≤ n) (h : (m : ℚ) * 2 ^ q = n * 2 ^ k) :
    q + bitlen m - 1 = k + bitlen n - 1 := by
  obtain ⟨hm1, hm2⟩ := binade_of_bitlen hm q
  obtain ⟨hn1, hn2⟩ := binade_of_bitlen hn k
  exact binade_unique hm1 hm2 (h ▸ hn1) (h ▸ hn2)

/-- Scaling to the quantum of another description gives its significand, the division being exact. -/
theorem scaleNat_eq_of_scaled_eq {m n : Nat} {q k : Int} (h : (m : ℚ) * 2 ^ q = n * 2 ^ k) :
    scaleNat m (q - k) = n := by
  have hdiv : (m : ℚ) * 2 ^ (q - k) = n := by
    rw [zpow_sub₀ two_ne_zero, ← mul_div_assoc, h, mul_div_cancel_right₀ _ (zpow_ne_zero k two_ne_zero)]
  obtain hle | hlt := le_or_gt 0 (q - k)
  · rw [scaleNat_of_nonneg hle]
    rw [← Int.toNat_of_nonneg hle, zpow_natCast] at hdiv
    exact_mod_cast hdiv
  · rw [scaleNat_of_neg hlt]
    have hmul : m = n * 2 ^ (-(q - k)).toNat := by
      rw [← neg_neg (q - k), ← Int.toNat_of_nonneg (Int.neg_nonneg.mpr hlt.le), zpow_neg, zpow_natCast,
        ← div_eq_mul_inv, div_eq_iff (by positivity)] at hdiv
      exact_mod_cast hdiv
    rw [hmul, Nat.mul_div_cancel _ (Nat.two_pow_pos _)]

/-! ### Fields -/

theorem precBits_eq (f : Fmt) : precBits f = fracBits f + 1 := by cases f <;> rfl

theorem fracOf_of_ne_X {f : Fmt} (hf : f ≠ .X) (a : Word80) : fracOf f a = sigOf f a := by
  cases f with
  | X => exact absurd rfl hf
  | S | D => rfl

/-- The integer bit of extended80 is the top bit of the significand field (40_codec.md R63). -/
theorem jBit_eq_true_iff (a : Word80) : jBit a = true ↔ 2 ^ fracBits .X ≤ sigOf .X a := by
  rw [jBit, BitVec.getLsbD, Nat.testBit_eq_decide_div_mod_eq, sigOf, BitVec.extractLsb'_toNat, decide_eq_true_iff,
    Nat.shiftRight_eq_div_pow]
  simp only [sigBits, fracBits, precBits]
  omega

theorem jBit_eq_false_iff (a : Word80) : jBit a = false ↔ sigOf .X a < 2 ^ fracBits .X := by
  rw [← not_le, ← jBit_eq_true_iff, Bool.not_eq_true]

theorem sigOf_lt (f : Fmt) (a : Word80) : sigOf f a < 2 ^ sigBits f := BitVec.isLt _

theorem mkPacked_congr {f : Fmt} {s : Bool} {e m n : Nat} (h : m % 2 ^ sigBits f = n % 2 ^ sigBits f) :
    mkPacked f s e m = mkPacked f s e n := by
  rw [mkPacked, mkPacked, h]

/-! ### Unpack -/

/-- The quantum of the finite values with biased exponent `e`: subnormal numbers share that of `e = 1`. -/
def quantum (f : Fmt) (e : Nat) : Int := max e 1 - bias f - fracBits f

theorem quantum_zero (f : Fmt) : quantum f 0 = emin f - fracBits f := by
  simp [quantum, emin]

theorem quantum_of_pos {f : Fmt} {e : Nat} (h : 1 ≤ e) : quantum f e = e - bias f - fracBits f := by
  rw [quantum, max_eq_left (by exact_mod_cast h)]

theorem Unpacked.eq_of_fields {u : Unpacked} {s : Bool} {m : Nat} {q : Int} (hs : u.sign = s) (hm : u.m = m)
    (hq : u.q = q) : u = { sign := s, m := m, q := q } := by
  subst hs hm hq
  rfl

theorem unpack_sign (f : Fmt) (a : Word80) : (unpack f a).sign = signOf f a := by
  cases f with
  | X => rfl
  | S | D => unfold unpack; dsimp only; split <;> rfl

theorem unpack_q (f : Fmt) (a : Word80) : (unpack f a).q = quantum f (expOf f a) := by
  obtain hzero | hpos := Nat.eq_zero_or_pos (expOf f a)
  · rw [hzero, quantum_zero]
    cases f <;> simp [unpack, hzero, emin, bias, fracBits, precBits]
  · rw [quantum_of_pos hpos]
    cases f <;> simp [unpack, hpos.ne', bias, fracBits, precBits]

theorem unpack_m_X (a : Word80) : (unpack .X a).m = sigOf .X a := rfl

theorem unpack_m_of_ne_X {f : Fmt} (hf : f ≠ .X) (a : Word80) :
    (unpack f a).m = if expOf f a = 0 then sigOf f a else 2 ^ fracBits f + sigOf f a := by
  cases f with
  | X => exact absurd rfl hf
  | S | D =>
    rw [← fracOf_of_ne_X (by decide)]
    unfold unpack
    dsimp only
    split <;> rfl

/-- The significand field holds the significand that Unpack gives, without the hidden bit of binary32 and binary64. -/
theorem unpack_m_mod (f : Fmt) (a : Word80) : (unpack f a).m % 2 ^ sigBits f = sigOf f a := by
  have hlt := sigOf_lt f a
  cases f with
  | X => exact Nat.mod_eq_of_lt hlt
  | S | D =>
    rw [unpack_m_of_ne_X (by decide)]
    simp only [sigBits, fracBits, precBits] at hlt ⊢
    split <;> omega

/-- The exponent field and the significand that Unpack gives determine a packed value of each sign. -/
theorem mkPacked_unpack {f : Fmt} {a : Word80} (h : a.toNat < 2 ^ fmtBits f) :
    mkPacked f (signOf f a) (expOf f a) (unpack f a).m = a := by
  rw [mkPacked_congr (n := sigOf f a), mkPacked_of_fields f a h]
  rw [unpack_m_mod, Nat.mod_eq_of_lt (sigOf_lt f a)]

/-! ### Classes -/

theorem classify_eq_denormal_iff (f : Fmt) (a : Word80) :
    classify f a = .denormal ↔ expOf f a = 0 ∧ sigOf f a ≠ 0 := by
  cases f with
  | X =>
    unfold classify
    dsimp only
    split_ifs <;> simp_all
  | S | D =>
    rw [← fracOf_of_ne_X (by decide)]
    unfold classify
    dsimp only
    split_ifs <;> simp_all

theorem classify_eq_normalized_iff (f : Fmt) (a : Word80) :
    classify f a = .normalized ↔ expOf f a ≠ 0 ∧ expOf f a ≠ expMax f ∧ (f = .X → jBit a = true) := by
  cases f with
  | S | D | X =>
    unfold classify
    dsimp only
    split_ifs <;> simp_all

theorem classify_eq_zero_iff (f : Fmt) (a : Word80) : classify f a = .zero ↔ expOf f a = 0 ∧ sigOf f a = 0 := by
  cases f with
  | X =>
    unfold classify
    dsimp only
    split_ifs <;> simp_all
  | S | D =>
    rw [← fracOf_of_ne_X (by decide)]
    unfold classify
    dsimp only
    split_ifs <;> simp_all

/-! ### The fields of a finite nonzero value -/

/-- Biased exponent `e` and significand `n`, hidden bit included, of a finite nonzero value as PackFinite assembles it
(40_codec.md R74): a subnormal number, or a normal one. A pseudo-denormal is neither. -/
inductive FiniteFields (f : Fmt) : Nat → Nat → Prop
  | subnormal {n : Nat} (hpos : 1 ≤ n) (hlt : n < 2 ^ fracBits f) : FiniteFields f 0 n
  | normal {e n : Nat} (hpos : 1 ≤ e) (hmax : e < expMax f) (hle : 2 ^ fracBits f ≤ n) (hlt : n < 2 ^ precBits f) :
      FiniteFields f e n

section
variable {f : Fmt} {s : Bool} {e n : Nat}

theorem FiniteFields.significand_pos (h : FiniteFields f e n) : 1 ≤ n := by
  cases h with
  | subnormal hpos _ => exact hpos
  | normal _ _ hle _ => exact Nat.one_le_two_pow.trans hle

theorem FiniteFields.significand_lt (h : FiniteFields f e n) : n < 2 ^ precBits f := by
  cases h with
  | subnormal _ hlt => exact hlt.trans (Nat.pow_lt_pow_right (by decide) (by rw [precBits_eq]; omega))
  | normal _ _ _ hlt => exact hlt

theorem FiniteFields.exponent_lt (h : FiniteFields f e n) : e < 2 ^ expBits f := by
  cases h with
  | subnormal => exact Nat.two_pow_pos _
  | normal _ hmax _ _ => exact hmax.trans_le (Nat.sub_le _ _)

theorem FiniteFields.exponent_eq_zero_iff (h : FiniteFields f e n) : e = 0 ↔ n < 2 ^ fracBits f := by
  cases h with
  | subnormal _ hlt => simp [hlt]
  | normal hpos _ hle _ => omega

/-- A value is normal exactly from `2^emin` up (40_codec.md R76). -/
theorem FiniteFields.exponent_ne_zero_iff (h : FiniteFields f e n) :
    e ≠ 0 ↔ (2 : ℚ) ^ emin f ≤ n * 2 ^ quantum f e := by
  cases h with
  | subnormal _ hlt =>
    have hemin : emin f = quantum f 0 + fracBits f := by rw [quantum_zero]; omega
    rw [hemin, le_scaled_iff]
    simpa using hlt
  | normal hpos _ hle _ =>
    have hquantum : emin f ≤ quantum f e + fracBits f := by
      rw [quantum_of_pos hpos, emin]
      omega
    have hle' : (2 : ℚ) ^ emin f ≤ n * 2 ^ quantum f e :=
      (zpow_le_zpow_right₀ one_le_two hquantum).trans ((le_scaled_iff ..).mpr hle)
    exact iff_of_true (by omega) hle'

theorem FiniteFields.expOf_mkPacked (h : FiniteFields f e n) : expOf f (mkPacked f s e n) = e :=
  (Machine.expOf_mkPacked ..).trans (Nat.mod_eq_of_lt h.exponent_lt)

theorem FiniteFields.sigOf_mkPacked_X (h : FiniteFields .X e n) : sigOf .X (mkPacked .X s e n) = n :=
  (sigOf_mkPacked ..).trans (Nat.mod_eq_of_lt h.significand_lt)

theorem FiniteFields.unpack_mkPacked (h : FiniteFields f e n) :
    unpack f (mkPacked f s e n) = { sign := s, m := n, q := quantum f e } := by
  have hm : (unpack f (mkPacked f s e n)).m = n := by
    have hlt := h.significand_lt
    have hzero := h.exponent_eq_zero_iff
    cases f with
    | X => exact h.sigOf_mkPacked_X
    | S | D =>
      rw [unpack_m_of_ne_X (by decide), h.expOf_mkPacked, sigOf_mkPacked]
      simp only [sigBits, fracBits, precBits] at hlt hzero ⊢
      split <;> omega
  exact Unpacked.eq_of_fields (by rw [unpack_sign, signOf_mkPacked]) hm (by rw [unpack_q, h.expOf_mkPacked])

theorem FiniteFields.classify_mkPacked (h : FiniteFields f e n) :
    classify f (mkPacked f s e n) = if e = 0 then .denormal else .normalized := by
  have hexp : expOf f (mkPacked f s e n) = e := h.expOf_mkPacked
  cases h with
  | subnormal hpos hlt =>
    have hsig : sigOf f (mkPacked f s 0 n) = n := by
      rw [sigOf_mkPacked, Nat.mod_eq_of_lt (hlt.trans_le (Nat.pow_le_pow_right two_pos (by cases f <;> decide)))]
    exact (classify_eq_denormal_iff ..).mpr ⟨hexp, by omega⟩
  | normal hpos hmax hle hlt =>
    have hj : f = .X → jBit (mkPacked f s e n) = true := by
      rintro rfl
      rwa [jBit_eq_true_iff, (FiniteFields.normal hpos hmax hle hlt).sigOf_mkPacked_X]
    rw [if_neg (by omega), classify_eq_normalized_iff, hexp]
    exact ⟨by omega, hmax.ne, hj⟩

theorem FiniteFields.jBit_eq_false_iff (h : FiniteFields .X e n) : jBit (mkPacked .X s e n) = false ↔ e = 0 := by
  rw [Machine.jBit_eq_false_iff, h.sigOf_mkPacked_X, h.exponent_eq_zero_iff]

end

/-- Every normal number has such fields: its exponent field and the significand that Unpack gives. -/
theorem finiteFields_of_normalized {f : Fmt} {a : Word80} (h : classify f a = .normalized) :
    FiniteFields f (expOf f a) (unpack f a).m := by
  obtain ⟨hne, hmax, hj⟩ := (classify_eq_normalized_iff f a).mp h
  have hexp : expOf f a < 2 ^ expBits f := BitVec.isLt _
  have hsig := sigOf_lt f a
  have hm : 2 ^ fracBits f ≤ (unpack f a).m ∧ (unpack f a).m < 2 ^ precBits f := by
    cases f with
    | X => exact ⟨(jBit_eq_true_iff a).mp (hj rfl), hsig⟩
    | S | D =>
      rw [unpack_m_of_ne_X (by decide), if_neg hne]
      simp only [sigBits, fracBits, precBits] at hsig ⊢
      omega
  obtain ⟨hle, hlt⟩ := hm
  exact .normal (by omega) (by rw [expMax] at hmax ⊢; omega) hle hlt

/-- Every subnormal number has such fields, but a pseudo-denormal of extended80 has not. -/
theorem finiteFields_of_denormal {f : Fmt} {a : Word80} (h : classify f a = .denormal)
    (hj : f = .X → jBit a = false) : FiniteFields f (expOf f a) (unpack f a).m := by
  obtain ⟨hzero, hne⟩ := (classify_eq_denormal_iff f a).mp h
  have hsig := sigOf_lt f a
  have hm : (unpack f a).m = sigOf f a := by
    cases f with
    | X => rfl
    | S | D => rw [unpack_m_of_ne_X (by decide), if_pos hzero]
  have hlt : sigOf f a < 2 ^ fracBits f := by
    cases f with
    | X => exact (jBit_eq_false_iff a).mp (hj rfl)
    | S | D => exact hsig
  rw [hzero, hm]
  exact .subnormal (by omega) hlt

/-- A pseudo-denormal has the significand of a normal number with exponent field 1. -/
theorem finiteFields_of_pseudoDenormal {a : Word80} (hj : jBit a = true) : FiniteFields .X 1 (sigOf .X a) :=
  .normal le_rfl (by decide) ((jBit_eq_true_iff a).mp hj) (sigOf_lt .X a)

/-! ### PackFinite -/

/-- PackFinite by the exponent, the quantum and the significand it computes: the hidden bit falls outside the
significand field. -/
theorem packFinite_eq {f : Fmt} {m n : Nat} {q e k : Int} (s : Bool) (he : q + bitlen m - 1 = e)
    (hk : max e (emin f) - fracBits f = k) (hn : scaleNat m (q - k) = n) :
    packFinite f s m q = mkPacked f s (if 2 ^ fracBits f ≤ n then (e + bias f).toNat else 0) n := by
  have hprec : (precBits f - 1 : Int) = fracBits f := by rw [precBits_eq]; omega
  unfold packFinite
  dsimp only
  rw [he, hprec, hk, hn, show precBits f - 1 = fracBits f from rfl]
  split
  case isTrue hle =>
    cases f with
    | X => rfl
    | S | D =>
      apply mkPacked_congr
      simp only [sigBits, fracBits, precBits] at hle ⊢
      omega
  case isFalse => rfl

/-- PackFinite assembles the fields of the value, however its magnitude is described. -/
theorem FiniteFields.packFinite_eq_mkPacked {f : Fmt} {e n m : Nat} {q : Int} (h : FiniteFields f e n) (s : Bool)
    (hm : 1 ≤ m) (hv : (m : ℚ) * 2 ^ q = n * 2 ^ quantum f e) : packFinite f s m q = mkPacked f s e n := by
  have hn := h.significand_pos
  have hexp := exponent_eq_of_scaled_eq hm hn hv
  have hscale := scaleNat_eq_of_scaled_eq hv
  cases h with
  | subnormal hpos hlt =>
    have hlen : bitlen n ≤ fracBits f := bitlen_le_of_lt hlt
    have hk : max (quantum f 0 + bitlen n - 1) (emin f) - fracBits f = quantum f 0 := by
      rw [quantum_zero]
      omega
    rw [packFinite_eq s hexp hk hscale, if_neg (by omega)]
  | normal hpos hmax hle hlt =>
    have hlen : bitlen n = fracBits f + 1 := (bitlen_eq_iff hn).mpr ⟨hle, precBits_eq f ▸ hlt⟩
    have hk : max (quantum f e + bitlen n - 1) (emin f) - fracBits f = quantum f e := by
      rw [quantum_of_pos hpos, emin]
      omega
    have hfield : (quantum f e + bitlen n - 1 + bias f).toNat = e := by
      rw [quantum_of_pos hpos]
      omega
    rw [packFinite_eq s hexp hk hscale, if_pos hle, hfield]

/-- Settles O29: the fields of the value are those of what Unpack gives; a pseudo-denormal unpacks to the significand
and the quantum of a normal number with exponent field 1. -/
theorem packUndoesUnpack : Obligations.PackUndoesUnpack := by
  intro f a ha
  refine ⟨fun hclass => ?_, fun hzero => ?_⟩
  · rw [unpack_sign, unpack_q]
    split
    case isTrue hpseudo =>
      obtain ⟨rfl, hexp, hj⟩ := hpseudo
      have h := finiteFields_of_pseudoDenormal hj
      rw [hexp]
      exact h.packFinite_eq_mkPacked _ h.significand_pos rfl
    case isFalse hnot =>
      have h : FiniteFields f (expOf f a) (unpack f a).m := by
        obtain hdenorm | hnorm := hclass
        · have hden : classify f a = .denormal := by simpa [isDenorm] using hdenorm
          have hexp := ((classify_eq_denormal_iff f a).mp hden).1
          exact finiteFields_of_denormal hden fun hf => Bool.eq_false_iff.mpr fun hj => hnot ⟨hf, hexp, hj⟩
        · exact finiteFields_of_normalized hnorm
      rw [h.packFinite_eq_mkPacked _ h.significand_pos rfl, mkPacked_unpack ha]
  · have hclass : classify f a = .zero := by simpa [isZero] using hzero
    obtain ⟨hexp, hsig⟩ := (classify_eq_zero_iff f a).mp hclass
    calc packZero f (signOf f a) = mkPacked f (signOf f a) (expOf f a) (sigOf f a) := by rw [hexp, hsig]; rfl
      _ = a := mkPacked_of_fields f a ha

/-! ### Members of a format -/

theorem two_mul_bias_lt_expMax (f : Fmt) : 2 * bias f < expMax f := by cases f <;> decide

/-- A member of the format has the fields of a finite nonzero value (40_codec.md R76). -/
theorem IsMember.exists_finiteFields {f : Fmt} {v : ℚ} (h : IsMember f (precBits f) v) :
    ∃ e n, FiniteFields f e n ∧ v = n * 2 ^ quantum f e := by
  obtain ⟨e, n, hle, hlt, hmax, hv⟩ := h
  have hprec : (precBits f - 1 : Int) = fracBits f := by rw [precBits_eq]; omega
  rw [hprec] at hv
  have hpos : 1 ≤ n := (scaled_pos_iff ..).mp (hv ▸ (zpow_pos two_pos e).trans_le hle)
  obtain hsub | hnorm := lt_or_ge e (emin f)
  · rw [max_eq_right hsub.le, ← quantum_zero] at hv
    have hbelow : (n : ℚ) * 2 ^ quantum f 0 < 2 ^ (quantum f 0 + fracBits f) := by
      rw [← hv]
      exact hlt.trans_le (zpow_le_zpow_right₀ one_le_two (by rw [quantum_zero]; omega))
    exact ⟨0, n, .subnormal hpos ((scaled_lt_iff ..).mp hbelow), hv⟩
  · have hlow : 1 ≤ e + bias f := by rw [emin] at hnorm; omega
    obtain ⟨E, hE⟩ := Int.eq_ofNat_of_zero_le (a := e + bias f) (by omega)
    have hE1 : 1 ≤ E := by omega
    have hEmax : E < expMax f := by
      have hbias := two_mul_bias_lt_expMax f
      rw [emax] at hmax
      omega
    have hquantum : e - fracBits f = quantum f E := by rw [quantum_of_pos hE1]; omega
    rw [max_eq_left hnorm, hquantum] at hv
    rw [hv, show e = quantum f E + fracBits f by omega, le_scaled_iff] at hle
    rw [hv, show e + 1 = quantum f E + precBits f by rw [precBits_eq]; omega, scaled_lt_iff] at hlt
    exact ⟨E, n, .normal hE1 hEmax hle hlt, hv⟩

/-- Settles O30: PackFinite assembles the fields of the member, and a value is read off its fields. -/
theorem packFiniteIsExact : Obligations.PackFiniteIsExact := by
  intro f s m q hm hmember
  obtain ⟨e, n, h, hv⟩ := hmember.exists_finiteFields
  have hpack : packFinite f s m q = mkPacked f s e n := h.packFinite_eq_mkPacked s hm hv
  refine ⟨packFinite_lt f s m q, ?_, ?_, ?_, ?_⟩
  · rw [hpack, signOf_mkPacked]
  · rw [hpack, val, h.unpack_mkPacked, hv, mul_assoc]
  · rw [hpack, h.classify_mkPacked, hv, ← ite_not]
    exact if_congr h.exponent_ne_zero_iff rfl rfl
  · rw [hpack, h.expOf_mkPacked]
    rintro rfl
    cases f with
    | X => exact .inl (h.jBit_eq_false_iff.mpr rfl)
    | S | D => exact .inr (by decide)

end Sys2Proof.Machine
end

section
/-! PROOFS. RoundAt against the rounding of real numbers (41_rounder.md R90, R93, R94): the discarded bits say where the
described magnitude lies between two multiples of the quantum. -/

namespace Sys2Proof.Machine

/-! ### Rounding a real number to a multiple of the quantum -/

/-- The mode delivers the upper end of the interval from `n * 2^q` to `(n + 1) * 2^q` for the `x` in it (R94). -/
def RoundsUp (rm : Rounding) (s : Bool) (x : ℝ) (q : Int) (n : Nat) : Prop :=
  match rm with
  | .nearestEven => (n : ℝ) * 2 ^ q + 2 ^ q / 2 < x ∨ (x = n * 2 ^ q + 2 ^ q / 2 ∧ Odd n)
  | .towardNegative => (n : ℝ) * 2 ^ q < x ∧ s = true
  | .towardPositive => (n : ℝ) * 2 ^ q < x ∧ s = false
  | .towardZero => False

section
variable {rm : Rounding} {s : Bool} {x : ℝ} {q : Int} {m n : Nat}

theorem RoundsUp.lt (h : RoundsUp rm s x q n) : (n : ℝ) * 2 ^ q < x := by
  have hq : (0 : ℝ) < 2 ^ q := zpow_pos two_pos q
  cases rm with
  | nearestEven => obtain habove | ⟨htie, -⟩ := h <;> linarith
  | towardNegative | towardPositive => exact h.1
  | towardZero => exact h.elim

theorem roundsTo_of_not_roundsUp (hle : (n : ℝ) * 2 ^ q ≤ x) (hlt : x < n * 2 ^ q + 2 ^ q)
    (h : ¬ RoundsUp rm s x q n) : RoundsTo rm s x q n := by
  have hdist : |(n : ℝ) * 2 ^ q - x| = x - n * 2 ^ q := by rw [abs_of_nonpos (by linarith), neg_sub]
  unfold RoundsTo
  rw [hdist]
  refine ⟨by linarith, ?_⟩
  cases rm with
  | nearestEven =>
    obtain ⟨hmid, htie⟩ := not_or.mp h
    exact ⟨by linarith, fun heq => Nat.not_odd_iff_even.mp fun hodd => htie ⟨by linarith, hodd⟩⟩
  | towardNegative =>
    cases s with
    | true => exact not_lt.mp fun hlt' => h ⟨hlt', rfl⟩
    | false => exact hle
  | towardPositive =>
    cases s with
    | true => exact hle
    | false => exact not_lt.mp fun hlt' => h ⟨hlt', rfl⟩
  | towardZero => exact hle

theorem roundsTo_succ_of_roundsUp (hlt : x < n * 2 ^ q + 2 ^ q) (h : RoundsUp rm s x q n) :
    RoundsTo rm s x q (n + 1) := by
  have hbelow := h.lt
  have hsucc : ((n + 1 : Nat) : ℝ) * 2 ^ q = n * 2 ^ q + 2 ^ q := by push_cast; ring
  have hdist : |(n : ℝ) * 2 ^ q + 2 ^ q - x| = n * 2 ^ q + 2 ^ q - x := abs_of_nonneg (by linarith)
  unfold RoundsTo
  rw [hsucc, hdist]
  refine ⟨by linarith, ?_⟩
  cases rm with
  | nearestEven =>
    obtain habove | ⟨htie, hodd⟩ := h
    · exact ⟨by linarith, fun heq => absurd heq (by linarith)⟩
    · exact ⟨by linarith, fun _ => hodd.add_one⟩
  | towardNegative =>
    obtain ⟨-, rfl⟩ := h
    exact hlt.le
  | towardPositive =>
    obtain ⟨-, rfl⟩ := h
    exact hlt.le
  | towardZero => exact h.elim

/-- Of two roundings of `x` neither is greater: a rounding a whole quantum above another one would be on the wrong side
of `x`, or both would be halfway, and not both of two neighbours are even. -/
theorem RoundsTo.le (hm : RoundsTo rm s x q m) (hn : RoundsTo rm s x q n) : m ≤ n := by
  by_contra! hlt
  have hq : (0 : ℝ) < 2 ^ q := zpow_pos two_pos q
  have hstep : (n : ℝ) * 2 ^ q + 2 ^ q ≤ m * 2 ^ q := by
    have hle : ((n : ℝ) + 1) * 2 ^ q ≤ m * 2 ^ q := by gcongr; exact_mod_cast hlt
    linarith
  obtain ⟨hmdist, hm⟩ := hm
  obtain ⟨hndist, hn⟩ := hn
  cases rm with
  | nearestEven =>
    obtain ⟨hmhalf, hmtie⟩ := hm
    obtain ⟨hnhalf, hntie⟩ := hn
    have hmabs := le_abs_self ((m : ℝ) * 2 ^ q - x)
    have hnabs := neg_abs_le ((n : ℝ) * 2 ^ q - x)
    have hsucc : m = n + 1 := by
      refine le_antisymm ?_ hlt
      have hle : (m : ℝ) * 2 ^ q ≤ (n + 1) * 2 ^ q := by linarith
      exact_mod_cast le_of_mul_le_mul_right hle hq
    have hmeven : Even m := hmtie (by linarith)
    have hneven : Even n := hntie (by linarith)
    exact Nat.not_even_iff_odd.mpr hneven.add_one (hsucc ▸ hmeven)
  | towardNegative | towardPositive | towardZero =>
    rw [abs_lt] at hmdist hndist
    cases s <;> simp only [if_true, if_false, Bool.false_eq_true] at hm hn <;> linarith

/-- The rounding mode gives one value (R93, R94). -/
theorem RoundsTo.unique (hm : RoundsTo rm s x q m) (hn : RoundsTo rm s x q n) : m = n :=
  le_antisymm (hm.le hn) (hn.le hm)

/-- A multiple of the quantum is its own rounding in every mode. -/
theorem roundsTo_self (h : x = n * 2 ^ q) : RoundsTo rm s x q n := by
  have hq : (0 : ℝ) < 2 ^ q := zpow_pos two_pos q
  refine roundsTo_of_not_roundsUp h.ge (by linarith) fun hup => ?_
  exact hup.lt.ne h.symm

end

/-! ### Descriptions -/

section
variable {sig : Nat} {exp : Int} {sticky : Bool} {x : ℝ}

theorem describes_exact_iff : Describes sig exp false x ↔ x = sig * 2 ^ exp := by simp [Describes]

theorem describes_sticky_iff :
    Describes sig exp true x ↔ (sig : ℝ) * 2 ^ exp < x ∧ x < (sig + 1) * 2 ^ exp := by simp [Describes]

/-- The described magnitude is below a multiple of `2^exp` exactly where `sig` is. -/
theorem Describes.lt_iff (h : Describes sig exp sticky x) (j : Nat) : x < j * 2 ^ exp ↔ sig < j := by
  have hexp : (0 : ℝ) < 2 ^ exp := zpow_pos two_pos exp
  cases sticky with
  | false => rw [describes_exact_iff.mp h, mul_lt_mul_iff_left₀ hexp, Nat.cast_lt]
  | true =>
    obtain ⟨hlow, hhigh⟩ := describes_sticky_iff.mp h
    constructor
    · intro hlt
      exact_mod_cast lt_of_mul_lt_mul_right (hlow.trans hlt) hexp.le
    · intro hlt
      refine hhigh.trans_le ?_
      gcongr
      exact_mod_cast hlt

theorem Describes.le_iff (h : Describes sig exp sticky x) (j : Nat) : (j : ℝ) * 2 ^ exp ≤ x ↔ j ≤ sig := by
  rw [← not_lt, h.lt_iff, not_lt]

theorem Describes.eq_iff (h : Describes sig exp sticky x) (j : Nat) :
    x = j * 2 ^ exp ↔ sig = j ∧ sticky = false := by
  have hexp : (2 : ℝ) ^ exp ≠ 0 := zpow_ne_zero exp two_ne_zero
  cases sticky with
  | false => simp [describes_exact_iff.mp h, hexp]
  | true =>
    refine iff_of_false (fun heq => ?_) (by simp)
    have hlt : (sig : ℝ) * 2 ^ exp < j * 2 ^ exp := heq ▸ (describes_sticky_iff.mp h).1
    exact ((h.le_iff j).mp heq.ge).not_gt (by exact_mod_cast lt_of_mul_lt_mul_right hlt (zpow_pos two_pos exp).le)

theorem Describes.gt_iff (h : Describes sig exp sticky x) (j : Nat) :
    (j : ℝ) * 2 ^ exp < x ↔ j < sig ∨ (sig = j ∧ sticky = true) := by
  rw [lt_iff_le_and_ne, h.le_iff, ne_comm, Ne, h.eq_iff]
  cases sticky <;> simp <;> omega

theorem natCast_two_pow_mul_zpow (k : Nat) (e : Int) : ((2 ^ k : Nat) : ℝ) * 2 ^ e = 2 ^ (e + k) := by
  rw [zpow_add₀ two_ne_zero, zpow_natCast, mul_comm]
  push_cast
  rfl

/-- The discarded low bits describe how far `x` lies above the kept multiple of the quantum. -/
theorem Describes.remainder (h : Describes sig exp sticky x) (k : Nat) :
    Describes (sig % 2 ^ k) exp sticky (x - (sig / 2 ^ k : Nat) * 2 ^ (exp + k)) := by
  have hsplit : (sig : ℝ) = 2 ^ k * (sig / 2 ^ k : Nat) + (sig % 2 ^ k : Nat) := by
    exact_mod_cast (Nat.div_add_mod sig (2 ^ k)).symm
  rw [zpow_add₀ two_ne_zero, zpow_natCast]
  cases sticky with
  | false =>
    rw [describes_exact_iff] at h ⊢
    rw [h, hsplit]
    ring
  | true =>
    rw [describes_sticky_iff, hsplit] at h
    obtain ⟨hlow, hhigh⟩ := h
    rw [describes_sticky_iff]
    exact ⟨by linarith, by linarith⟩

theorem Describes.kept_le (h : Describes sig exp sticky x) (k : Nat) :
    ((sig / 2 ^ k : Nat) : ℝ) * 2 ^ (exp + k) ≤ x := by
  have hle := ((h.remainder k).le_iff 0).mpr (Nat.zero_le _)
  rwa [Nat.cast_zero, zero_mul, sub_nonneg] at hle

theorem Describes.lt_kept_add (h : Describes sig exp sticky x) (k : Nat) :
    x < ((sig / 2 ^ k : Nat) : ℝ) * 2 ^ (exp + k) + 2 ^ (exp + k) := by
  have hlt := ((h.remainder k).lt_iff (2 ^ k)).mpr (Nat.mod_lt _ (Nat.two_pow_pos _))
  rwa [natCast_two_pow_mul_zpow, sub_lt_iff_lt_add'] at hlt

theorem Describes.kept_lt_iff (h : Describes sig exp sticky x) (k : Nat) :
    ((sig / 2 ^ k : Nat) : ℝ) * 2 ^ (exp + k) < x ↔ (sig % 2 ^ k != 0 || sticky) = true := by
  have hlt := (h.remainder k).gt_iff 0
  rw [Nat.cast_zero, zero_mul, sub_pos] at hlt
  rw [hlt]
  cases sticky
  · simp [Nat.pos_iff_ne_zero]
  · simp [Nat.eq_zero_or_pos, or_comm]

end

/-! ### RoundAt -/

/-- What RoundAt is to return where `x` is rounded to `m * 2^q` (R93). -/
noncomputable def roundedTo (x : ℝ) (q : Int) (m : Nat) : Rounded :=
  { m := m, inexact := decide ((m : ℝ) * 2 ^ q ≠ x), up := decide (x < m * 2 ^ q) }

/-- `r` is the rounding of `x` at the quantum `2^q`, with the two comparisons RoundAt returns. -/
def Rounded.Rounds (r : Rounded) (rm : Rounding) (s : Bool) (x : ℝ) (q : Int) : Prop :=
  RoundsTo rm s x q r.m ∧ r = roundedTo x q r.m

section
variable {rm : Rounding} {s : Bool} {sig : Nat} {exp : Int} {sticky : Bool} {q : Int} {x : ℝ} {m : Nat}

theorem roundedTo_of_le {b : Bool} (h : (m : ℝ) * 2 ^ q ≤ x) (hb : (m : ℝ) * 2 ^ q < x ↔ b = true) :
    roundedTo x q m = { m := m, inexact := b, up := false } := by
  have hne : (m : ℝ) * 2 ^ q ≠ x ↔ b = true := h.lt_iff_ne.symm.trans hb
  simp [roundedTo, h, hne]

theorem roundedTo_of_lt (h : x < m * 2 ^ q) : roundedTo x q m = { m := m, inexact := true, up := true } := by
  simp [roundedTo, h, h.ne']

theorem roundedTo_of_eq (h : x = m * 2 ^ q) : roundedTo x q m = { m := m, inexact := false, up := false } :=
  roundedTo_of_le h.ge (by simp [h])

/-- Nothing is discarded at a quantum of `2^exp` or less. -/
theorem roundAt_of_le (h : q ≤ exp) :
    roundAt rm s sig exp sticky q = { m := sig * 2 ^ (exp - q).toNat, inexact := false, up := false } := by
  rw [roundAt]
  dsimp only
  rw [if_pos (by omega), neg_sub]

/-- Discarding `k + 1` bits. -/
theorem roundAt_add_succ (k : Nat) :
    let inexact := sig % 2 ^ (k + 1) != 0 || sticky
    let inc := increment rm s (sig / 2 ^ (k + 1)) (sig % 2 ^ (k + 1)) (2 ^ k) sticky inexact
    roundAt rm s sig exp sticky (exp + (k + 1 : Nat)) =
      { m := sig / 2 ^ (k + 1) + inc.toNat, inexact := inexact, up := inc } := by
  have hsh : (exp + (k + 1 : Nat) - exp).toNat = k + 1 := by omega
  rw [roundAt]
  dsimp only
  rw [if_neg (by omega), hsh]
  rfl

/-- `Increment` reads off the discarded bits on which side of the halfway point `x` lies (R94). -/
theorem increment_iff_roundsUp (h : Describes sig exp sticky x) (k : Nat) :
    increment rm s (sig / 2 ^ (k + 1)) (sig % 2 ^ (k + 1)) (2 ^ k) sticky (sig % 2 ^ (k + 1) != 0 || sticky) = true ↔
      RoundsUp rm s x (exp + (k + 1 : Nat)) (sig / 2 ^ (k + 1)) := by
  cases rm with
  | nearestEven =>
    have hrem := h.remainder (k + 1)
    have hhalf : (2 : ℝ) ^ (exp + (k + 1 : Nat)) / 2 = (2 ^ k : Nat) * 2 ^ exp := by
      rw [← natCast_two_pow_mul_zpow, pow_succ]
      push_cast
      ring
    simp only [increment, RoundsUp]
    rw [hhalf, ← lt_sub_iff_add_lt', hrem.gt_iff, ← sub_eq_iff_eq_add', hrem.eq_iff, Nat.odd_iff]
    cases sticky <;> simp
  | towardNegative | towardPositive =>
    simp only [increment, RoundsUp]
    rw [h.kept_lt_iff]
    simp
  | towardZero => simp [increment, RoundsUp]

theorem roundAt_rounds_of_le (hx : x = sig * 2 ^ exp) (h : q ≤ exp) :
    (roundAt rm s sig exp sticky q).Rounds rm s x q := by
  have hexp : q + (exp - q).toNat = exp := by omega
  have hmul : x = (sig * 2 ^ (exp - q).toNat : Nat) * 2 ^ q := by
    rw [Nat.cast_mul, mul_assoc, natCast_two_pow_mul_zpow, hexp, hx]
  rw [roundAt_of_le h]
  exact ⟨roundsTo_self hmul, (roundedTo_of_eq hmul).symm⟩

theorem roundAt_rounds_add_succ (h : Describes sig exp sticky x) (k : Nat) :
    (roundAt rm s sig exp sticky (exp + (k + 1 : Nat))).Rounds rm s x (exp + (k + 1 : Nat)) := by
  have hlow := h.kept_le (k + 1)
  have hhigh := h.lt_kept_add (k + 1)
  have hinexact := h.kept_lt_iff (k + 1)
  have hup := increment_iff_roundsUp (rm := rm) (s := s) h k
  rw [roundAt_add_succ]
  cases hinc : increment rm s (sig / 2 ^ (k + 1)) (sig % 2 ^ (k + 1)) (2 ^ k) sticky
    (sig % 2 ^ (k + 1) != 0 || sticky) with
  | false =>
    have hround := hup.not.mp (by simp [hinc])
    exact ⟨roundsTo_of_not_roundsUp hlow hhigh hround, (roundedTo_of_le hlow hinexact).symm⟩
  | true =>
    have hround := hup.mp hinc
    have hnext : x < ((sig / 2 ^ (k + 1) + 1 : Nat) : ℝ) * 2 ^ (exp + (k + 1 : Nat)) := by
      rwa [Nat.cast_add_one, add_one_mul]
    rw [hinexact.mp hround.lt]
    exact ⟨roundsTo_succ_of_roundsUp hhigh hround, (roundedTo_of_lt hnext).symm⟩

/-- RoundAt delivers the rounding of the described magnitude, and its two bits compare it with that magnitude. -/
theorem roundAt_rounds (h : Describes sig exp sticky x) (hst : sticky = true → exp < q) :
    (roundAt rm s sig exp sticky q).Rounds rm s x q := by
  obtain hle | hlt := le_or_gt q exp
  · have hexact : sticky = false := Bool.eq_false_iff.mpr fun hs => hle.not_gt (hst hs)
    exact roundAt_rounds_of_le (describes_exact_iff.mp (hexact ▸ h)) hle
  · obtain ⟨k, rfl⟩ : ∃ k : Nat, q = exp + (k + 1 : Nat) := ⟨(q - exp - 1).toNat, by omega⟩
    exact roundAt_rounds_add_succ h k

/-- Whatever the described magnitude rounds to is what RoundAt delivers. -/
theorem roundAt_eq_roundedTo (h : Describes sig exp sticky x) (hst : sticky = true → exp < q)
    (hround : RoundsTo rm s x q m) : roundAt rm s sig exp sticky q = roundedTo x q m := by
  obtain ⟨hm, heq⟩ := roundAt_rounds (rm := rm) (s := s) h hst
  rwa [hm.unique hround] at heq

end

/-- Settles O34: RoundAt returns the rounding with the two comparisons. -/
theorem roundAtRoundsTheDescribedValue : Obligations.RoundAtRoundsTheDescribedValue := by
  intro rm s sig exp sticky q x h hst
  obtain ⟨hround, heq⟩ := roundAt_rounds (rm := rm) (s := s) h hst
  exact ⟨hround, by rw [heq]; exact decide_eq_true_iff, by rw [heq]; exact decide_eq_true_iff⟩

end Sys2Proof.Machine
end

section
/-! PROOFS. RoundPack against the rounding of real numbers (41_rounder.md R92 to R109): its result is determined by the
magnitude described, its exponent and its two roundings. -/

namespace Sys2Proof.Machine

/-! ### Flags -/

theorem hasFlag_or {v w : Word16} {fl : Flag} : HasFlag (v ||| w) fl ↔ HasFlag v fl ∨ HasFlag w fl := by
  unfold HasFlag
  rw [BitVec.and_or_distrib_right, Ne, BitVec.or_eq_zero_iff, not_and_or]

theorem hasFlag_raiseIf {b : Bool} {g fl : Flag} : HasFlag (raiseIf b g) fl ↔ b = true ∧ g = fl := by
  cases b with
  | false => simp [HasFlag]
  | true => cases g <;> cases fl <;> simp [HasFlag, Flag.bit]

theorem raiseIf_rounding_and_others (u i p : Bool) :
    (raiseIf u .underflow ||| raiseIf i .inexact ||| raiseIf p .plu) &&& 0xFDCF#16 = 0#16 := by
  revert u i p
  decide

/-! ### Packing at a precision -/

/-- The precisions of RoundPack (R90, R104). -/
theorem precision_bounds {f : Fmt} {p : Nat} (hp : p = precBits f ∨ (f = .X ∧ (p = 24 ∨ p = 53))) :
    1 ≤ p ∧ p ≤ precBits f := by
  obtain rfl | ⟨rfl, rfl | rfl⟩ := hp
  · cases f <;> decide
  · decide
  · decide

theorem emin_lt_emax (f : Fmt) : emin f < emax f := by cases f <;> decide

section
variable {f : Fmt} {p m n : Nat} {q k : Int} {v : ℚ}

/-- A member at a precision is one at every greater precision (40_codec.md R76). -/
theorem IsMember.mono (h : IsMember f p v) (hp : p ≤ precBits f) : IsMember f (precBits f) v := by
  obtain ⟨e, n, hle, hlt, hmax, hv⟩ := h
  have hquantum : (max e (emin f) - (p - 1) : Int) = max e (emin f) - (precBits f - 1) + (precBits f - p : Nat) := by
    omega
  refine ⟨e, n * 2 ^ (precBits f - p), hle, hlt, hmax, ?_⟩
  rw [hv, hquantum, zpow_add₀ two_ne_zero, zpow_natCast]
  push_cast
  ring

/-- A multiple of the least quantum with a significand of the format's width is a member, if it is in range. -/
theorem isMember_of_lt (hm : 1 ≤ m) (hlt : m < 2 ^ precBits f) (hq : emin f ≤ q + (precBits f - 1))
    (hmax : (m : ℚ) * 2 ^ q < 2 ^ (emax f + 1)) : IsMember f (precBits f) (m * 2 ^ q) := by
  obtain ⟨hlow, hhigh⟩ := binade_of_bitlen hm q
  have hlen : bitlen m ≤ precBits f := bitlen_le_of_lt hlt
  have hexp : q + bitlen m - 1 < emax f + 1 := (zpow_lt_zpow_iff_right₀ one_lt_two).mp (hlow.trans_lt hmax)
  obtain ⟨k, hk⟩ : ∃ k : Nat, q = max (q + bitlen m - 1) (emin f) - (precBits f - 1) + k :=
    ⟨(q - (max (q + bitlen m - 1) (emin f) - (precBits f - 1))).toNat, by omega⟩
  refine ⟨_, m * 2 ^ k, hlow, hhigh, by omega, ?_⟩
  conv_lhs => rw [hk]
  rw [zpow_add₀ two_ne_zero, zpow_natCast]
  push_cast
  ring

/-- The significand may also be the power of two that a carry gives. -/
theorem isMember_of_le (hm : 1 ≤ m) (hle : m ≤ 2 ^ precBits f) (hq : emin f ≤ q + (precBits f - 1))
    (hmax : (m : ℚ) * 2 ^ q < 2 ^ (emax f + 1)) : IsMember f (precBits f) (m * 2 ^ q) := by
  obtain hlt | rfl := hle.lt_or_eq
  · exact isMember_of_lt hm hlt hq hmax
  · have hhalf : ((2 ^ precBits f : Nat) : ℚ) * 2 ^ q = (2 ^ fracBits f : Nat) * 2 ^ (q + 1) := by
      rw [precBits_eq, zpow_add₀ two_ne_zero, pow_succ, zpow_one]
      push_cast
      ring
    rw [hhalf] at hmax ⊢
    have hwidth : 2 ^ fracBits f < 2 ^ precBits f := Nat.pow_lt_pow_right one_lt_two (by rw [precBits_eq]; omega)
    exact isMember_of_lt Nat.one_le_two_pow hwidth (by omega) hmax

theorem packFinite_congr (s : Bool) (hm : 1 ≤ m) (hn : 1 ≤ n) (hmem : IsMember f (precBits f) (m * 2 ^ q))
    (h : (m : ℚ) * 2 ^ q = n * 2 ^ k) : packFinite f s m q = packFinite f s n k := by
  obtain ⟨E, N, hfields, hv⟩ := hmem.exists_finiteFields
  rw [hfields.packFinite_eq_mkPacked s hm hv, hfields.packFinite_eq_mkPacked s hn (h ▸ hv)]

/-- A packed value is finite, of sign `s` and of magnitude `v`. -/
def PackedAs (f : Fmt) (s : Bool) (v : ℚ) (a : Word80) : Prop :=
  isFinite f a = true ∧ signOf f a = s ∧ val f a = signFactor s * v

theorem packFinite_packedAs (s : Bool) (hm : 1 ≤ m) (hmem : IsMember f (precBits f) (m * 2 ^ q)) :
    PackedAs f s (m * 2 ^ q) (packFinite f s m q) := by
  obtain ⟨-, hsign, hval, hclass, -⟩ := packFiniteIsExact f s m q hm hmem
  refine ⟨?_, hsign, hval⟩
  rw [isFinite, hclass]
  split <;> rfl

theorem packZero_packedAs (f : Fmt) (s : Bool) : PackedAs f s 0 (packZero f s) := by
  have hexp : expOf f (packZero f s) = 0 := (expOf_mkPacked ..).trans (Nat.zero_mod _)
  have hsig : sigOf f (packZero f s) = 0 := (sigOf_mkPacked ..).trans (Nat.zero_mod _)
  have hm : (unpack f (packZero f s)).m = 0 := by
    cases f with
    | X => exact hsig
    | S | D => rw [unpack_m_of_ne_X (by decide), if_pos hexp, hsig]
  refine ⟨?_, signOf_mkPacked .., ?_⟩
  · rw [isFinite, (classify_eq_zero_iff ..).mpr ⟨hexp, hsig⟩]
    rfl
  · rw [val, hm, Nat.cast_zero, mul_zero, zero_mul, mul_zero]

/-- The delivered value, a zero where the magnitude rounds to none (R101, R103). -/
theorem delivered_packedAs (s : Bool) (hmem : 1 ≤ m → IsMember f (precBits f) (m * 2 ^ q)) :
    PackedAs f s (m * 2 ^ q) (if m = 0 then packZero f s else packFinite f s m q) := by
  split
  case isTrue hzero =>
    rw [hzero, Nat.cast_zero, zero_mul]
    exact packZero_packedAs f s
  case isFalse hne =>
    have hm : 1 ≤ m := Nat.one_le_iff_ne_zero.mpr hne
    exact packFinite_packedAs s hm (hmem hm)

/-- MaxFinite of a precision (R96). -/
theorem maxFinite_packedAs (s : Bool) (h1 : 1 ≤ p) (hp : p ≤ precBits f) :
    PackedAs f s ((2 ^ p - 1) * 2 ^ (emax f - (p - 1))) (packFinite f s (2 ^ p - 1) (emax f - (p - 1))) := by
  have hpow : 2 ≤ 2 ^ p := Nat.le_self_pow (by omega) 2
  have hwidth : 2 ^ p ≤ 2 ^ precBits f := Nat.pow_le_pow_right two_pos hp
  have hcast : ((2 ^ p - 1 : Nat) : ℚ) = 2 ^ p - 1 := by
    rw [Nat.cast_sub (by omega)]
    push_cast
    rfl
  have hmax : ((2 ^ p - 1 : Nat) : ℚ) * 2 ^ (emax f - (p - 1)) < 2 ^ (emax f + 1) := by
    rw [show emax f + 1 = emax f - (p - 1) + p by omega, scaled_lt_iff]
    omega
  have hrange := emin_lt_emax f
  have hmem := isMember_of_lt (by omega) (by omega) (by omega) hmax
  rw [← hcast]
  exact packFinite_packedAs s (by omega) hmem

end

/-! ### After the roundings -/

/-- RoundPack after its two roundings: the range check, the flush, the delivery (R106). -/
def packRounded (P : Config.Params) (c : Context) (f : Fmt) (p : Nat) (s : Bool) (e1 q : Int) (r : Rounded) : Result :=
  if emax f < e1 then overflowResult c f p s
  else if e1 < emin f ∧ c.ftz = true then { value := packZero f s, flags := raise [.underflow, .inexact] }
  else deliver P f s (decide (e1 < emin f)) q r

section
variable {P : Config.Params} {c : Context} {f : Fmt} {p : Nat} {s : Bool} {e1 q : Int} {r : Rounded}

theorem packRounded_of_overflow (h : emax f < e1) : packRounded P c f p s e1 q r = overflowResult c f p s := if_pos h

theorem packRounded_of_flush (h : e1 < emin f) (hftz : c.ftz = true) :
    packRounded P c f p s e1 q r = { value := packZero f s, flags := 0x0030#16 } := by
  have hrange := emin_lt_emax f
  rw [packRounded, if_neg (by omega), if_pos ⟨h, hftz⟩]
  rfl

theorem packRounded_of_deliver (h : e1 ≤ emax f) (hflush : ¬ (e1 < emin f ∧ c.ftz = true)) :
    packRounded P c f p s e1 q r = deliver P f s (decide (e1 < emin f)) q r := by
  rw [packRounded, if_neg (by omega), if_neg hflush]

end

theorem overflowToInf_iff (rm : Rounding) (s : Bool) : overflowToInf rm s = true ↔
    rm = .nearestEven ∨ (rm = .towardPositive ∧ s = false) ∨ (rm = .towardNegative ∧ s = true) := by
  cases rm <;> simp [overflowToInf]

theorem overflowResult_of_toInf {c : Context} {s : Bool} (f : Fmt) (p : Nat) (h : overflowToInf c.rm s = true) :
    overflowResult c f p s = { value := packInf f s, flags := if f = .X then 0x0228#16 else 0x0028#16 } := by
  rw [overflowResult, if_pos h]
  cases f <;> rfl

theorem overflowResult_of_maxFinite {c : Context} {s : Bool} (f : Fmt) (p : Nat) (h : ¬ overflowToInf c.rm s = true) :
    overflowResult c f p s =
      { value := packFinite f s (2 ^ p - 1) (emax f - (p - 1)), flags := 0x0028#16 } := by
  rw [overflowResult, if_neg h]
  rfl

section
variable {P : Config.Params} {f : Fmt} {s tiny : Bool} {q : Int} {x : ℝ} {m : Nat}

theorem deliver_underflow_iff : HasFlag (deliver P f s tiny q (roundedTo x q m)).flags .underflow ↔
    tiny = true ∧ ((m : ℝ) * 2 ^ q ≠ x ∨ P.underflowNeedsInexact = false) := by
  simp [deliver, roundedTo, hasFlag_or, hasFlag_raiseIf]

theorem deliver_inexact_iff : HasFlag (deliver P f s tiny q (roundedTo x q m)).flags .inexact ↔
    (m : ℝ) * 2 ^ q ≠ x := by
  simp [deliver, roundedTo, hasFlag_or, hasFlag_raiseIf]

theorem deliver_plu_iff : HasFlag (deliver P f s tiny q (roundedTo x q m)).flags .plu ↔
    f = .X ∧ x < (m : ℝ) * 2 ^ q := by
  have hne : x < (m : ℝ) * 2 ^ q → (m : ℝ) * 2 ^ q ≠ x := fun h => h.ne'
  simpa [deliver, roundedTo, hasFlag_or, hasFlag_raiseIf, and_comm] using fun _ => hne

/-- An exact value is delivered without a flag, tiny or not, with UNDERFLOW_NEEDS_INEXACT. -/
theorem deliver_exact (hP : P.underflowNeedsInexact = true) (hm : 1 ≤ m) (hx : x = m * 2 ^ q) :
    deliver P f s tiny q (roundedTo x q m) = { value := packFinite f s m q, flags := 0#16 } := by
  rw [roundedTo_of_eq hx, deliver]
  simp [hP, Nat.one_le_iff_ne_zero.mp hm]

end

/-! ### The magnitude, its exponent and its roundings -/

/-- `(sig, exp, sticky)` describe `x` well enough for RoundPack at precision `p` (R90, R91). -/
structure DescribesAt (p sig : Nat) (exp : Int) (sticky : Bool) (x : ℝ) : Prop where
  pos : 1 ≤ sig
  describes : Describes sig exp sticky x
  long : sticky = true → p + 2 ≤ bitlen sig

/-- `e` is the exponent of the magnitude `x`, `m1` its rounding with unbounded exponent and `m` the delivered one
(R92, R95, R98). -/
structure PackRoundings (rm : Rounding) (f : Fmt) (p : Nat) (s : Bool) (x : ℝ) (e : Int) (m1 m : Nat) : Prop where
  le : (2 : ℝ) ^ e ≤ x
  lt : x < 2 ^ (e + 1)
  unbounded : RoundsTo rm s x (e - (p - 1)) m1
  delivered : RoundsTo rm s x (max e (emin f) - (p - 1)) m

/-- The exponent `e1` of the rounded value: one more than `e` where the rounding carries (R95). -/
def carriedExp (p : Nat) (e : Int) (m1 : Nat) : Int := if m1 = 2 ^ p then e + 1 else e

theorem RoundsTo.le_two_pow {rm : Rounding} {s : Bool} {x : ℝ} {q : Int} {m j : Nat} (h : RoundsTo rm s x q m)
    (hx : x < 2 ^ (q + j)) : m ≤ 2 ^ j := by
  have hq : (0 : ℝ) < 2 ^ q := zpow_pos two_pos q
  obtain ⟨hdist, -⟩ := h
  have hlt : (m : ℝ) * 2 ^ q < ((2 ^ j : Nat) + 1) * 2 ^ q := by
    rw [add_one_mul, natCast_two_pow_mul_zpow]
    linarith [(abs_lt.mp hdist).2]
  exact Nat.lt_succ_iff.mp (by exact_mod_cast lt_of_mul_lt_mul_right hlt hq.le)

section
variable {P : Config.Params} {c : Context} {f : Fmt} {p : Nat} {s : Bool} {sig : Nat} {exp : Int} {sticky : Bool}
  {x : ℝ} {rm : Rounding} {e : Int} {m1 m : Nat}

theorem DescribesAt.binade (h : DescribesAt p sig exp sticky x) :
    (2 : ℝ) ^ (exp + bitlen sig - 1) ≤ x ∧ x < 2 ^ (exp + bitlen sig - 1 + 1) := by
  obtain ⟨hpos, hdesc, -⟩ := h
  have hlen := bitlen_pos hpos
  have hlow := (hdesc.le_iff _).mpr (two_pow_le_of_bitlen hpos)
  have hhigh := (hdesc.lt_iff _).mpr (lt_two_pow_bitlen sig)
  rw [natCast_two_pow_mul_zpow] at hlow hhigh
  rw [sub_add_cancel, show exp + bitlen sig - 1 = exp + (bitlen sig - 1 : Nat) by omega]
  exact ⟨hlow, hhigh⟩

/-- Normalization finds the exponent of the magnitude (R92). -/
theorem PackRoundings.exponent_eq (h : PackRoundings rm f p s x e m1 m) (hd : DescribesAt p sig exp sticky x) :
    exp + bitlen sig - 1 = e := by
  obtain ⟨hlow, hhigh⟩ := hd.binade
  have hle : exp + bitlen sig - 1 < e + 1 := (zpow_lt_zpow_iff_right₀ one_lt_two).mp (hlow.trans_lt h.lt)
  have hge : e < exp + bitlen sig - 1 + 1 := (zpow_lt_zpow_iff_right₀ one_lt_two).mp (h.le.trans_lt hhigh)
  omega

/-- A sticky bit lies below both quanta of RoundPack (R91). -/
theorem DescribesAt.exp_lt (h : DescribesAt p sig exp sticky x) {q : Int} (hq : exp + bitlen sig - 1 - (p - 1) ≤ q)
    (hst : sticky = true) : exp < q := by
  have hlong := h.long hst
  omega

theorem DescribesAt.exists_packRoundings (h : DescribesAt p sig exp sticky x) (rm : Rounding) (f : Fmt) (s : Bool) :
    ∃ e m1 m, PackRoundings rm f p s x e m1 m := by
  obtain ⟨hlow, hhigh⟩ := h.binade
  exact ⟨_, _, _, hlow, hhigh, (roundAt_rounds h.describes (h.exp_lt le_rfl)).1,
    (roundAt_rounds h.describes (h.exp_lt (by omega))).1⟩

/-- RoundPack is determined by the magnitude: by its exponent and its two roundings. -/
theorem roundPack_eq_packRounded (hd : DescribesAt p sig exp sticky x) (h : PackRoundings c.rm f p s x e m1 m) :
    roundPack P c f p s sig exp sticky =
      packRounded P c f p s (carriedExp p e m1) (max e (emin f) - (p - 1))
        (roundedTo x (max e (emin f) - (p - 1)) m) := by
  have he := h.exponent_eq hd
  have hunbounded := roundAt_eq_roundedTo hd.describes (hd.exp_lt (by omega)) h.unbounded
  have hdelivered := roundAt_eq_roundedTo hd.describes (hd.exp_lt (by omega)) h.delivered
  have hexp : roundedExp c p s sig exp sticky = carriedExp p e m1 := by
    rw [roundedExp, he, hunbounded]
    rfl
  simp only [roundPack, packRounded, hexp, he, hdelivered, Bool.and_eq_true, decide_eq_true_eq]

/-- A rounded value in the range of the format is a member of it, or zero. -/
theorem PackRoundings.isMember (h : PackRoundings rm f p s x e m1 m) (hp : p ≤ precBits f)
    (hmax : carriedExp p e m1 ≤ emax f) (hm : 1 ≤ m) :
    IsMember f (precBits f) (m * 2 ^ (max e (emin f) - (p - 1) : Int)) := by
  have hwidth : m ≤ 2 ^ p := by
    refine h.delivered.le_two_pow (h.lt.trans_le (zpow_le_zpow_right₀ one_le_two ?_))
    omega
  have hcarry : (m : ℚ) * 2 ^ (max e (emin f) - (p - 1) : Int) < 2 ^ (max e (emin f) - (p - 1) + (p + 1 : Nat)) := by
    rw [scaled_lt_iff, pow_succ]
    have hpos := Nat.two_pow_pos p
    omega
  have hrange := emin_lt_emax f
  refine isMember_of_le hm (hwidth.trans (Nat.pow_le_pow_right two_pos hp)) (by omega) ?_
  by_cases hsub : e < emin f ∨ m1 = 2 ^ p
  · refine hcarry.trans_le (zpow_le_zpow_right₀ one_le_two ?_)
    obtain hsub | hm1 := hsub
    · omega
    · rw [carriedExp, if_pos hm1] at hmax
      omega
  · obtain ⟨hnorm, hm1⟩ := not_or.mp hsub
    have hq : max e (emin f) = e := max_eq_left (not_lt.mp hnorm)
    have heq : m = m1 := RoundsTo.unique (hq ▸ h.delivered) h.unbounded
    rw [carriedExp, if_neg hm1] at hmax
    rw [hq]
    have hlt : (m : ℚ) * 2 ^ (e - (p - 1) : Int) < 2 ^ (e - (p - 1) + p : Int) := by
      rw [scaled_lt_iff]
      omega
    exact hlt.trans_le (zpow_le_zpow_right₀ one_le_two (by omega))

end

/-! ### The obligations -/

/-- Settles O35: RoundPack by the branches of what follows its two roundings. -/
theorem roundPackIsCorrectRounding : Obligations.RoundPackIsCorrectRounding := by
  intro P c f p s sig exp sticky x e m1 m hp hpos hdesc hlong hle hlt hunbounded hdelivered e1 r
  have h : PackRoundings c.rm f p s x e m1 m := ⟨hle, hlt, hunbounded, hdelivered⟩
  have hr : r = packRounded P c f p s e1 _ _ := roundPack_eq_packRounded ⟨hpos, hdesc, hlong⟩ h
  obtain ⟨h1, hprec⟩ := precision_bounds hp
  refine ⟨fun hover => ?_, fun htiny hftz => ?_, fun hmax hflush => ?_⟩
  · rw [packRounded_of_overflow hover] at hr
    split
    case isTrue htoInf => rw [hr, overflowResult_of_toInf f p ((overflowToInf_iff ..).mpr htoInf)]; rfl
    case isFalse htoMax =>
      rw [overflowResult_of_maxFinite f p ((overflowToInf_iff ..).not.mpr htoMax)] at hr
      rw [hr]
      exact ⟨rfl, maxFinite_packedAs s h1 hprec⟩
  · rw [hr, packRounded_of_flush htiny hftz]
    rfl
  · rw [packRounded_of_deliver hmax hflush] at hr
    obtain ⟨hfinite, hsign, hval⟩ := delivered_packedAs s (h.isMember hprec hmax)
    rw [hr, deliver_underflow_iff, deliver_inexact_iff, deliver_plu_iff, decide_eq_true_iff]
    exact ⟨rfl, hfinite, hsign, hval, Iff.rfl, Iff.rfl, Iff.rfl, raiseIf_rounding_and_others ..⟩

/-- Settles O36: the roundings of the magnitude determine the result, whichever description RoundPack is given. -/
theorem roundPackDependsOnTheValueOnly : Obligations.RoundPackDependsOnTheValueOnly := by
  intro P c f p s sig sig' exp exp' sticky sticky' x _ hpos hpos' hdesc hdesc' hlong hlong'
  have hd : DescribesAt p sig exp sticky x := ⟨hpos, hdesc, hlong⟩
  have hd' : DescribesAt p sig' exp' sticky' x := ⟨hpos', hdesc', hlong'⟩
  obtain ⟨e, m1, m, h⟩ := hd.exists_packRoundings c.rm f s
  rw [roundPack_eq_packRounded hd h, roundPack_eq_packRounded hd' h]

/-- A member rounds to itself, at its own quantum and at the finer one of unbounded exponent, without a carry. -/
theorem packRoundings_of_multiple {f : Fmt} {p n : Nat} {e : Int} {x : ℝ} (rm : Rounding) (s : Bool)
    (hle : (2 : ℝ) ^ e ≤ x) (hlt : x < 2 ^ (e + 1)) (hx : x = n * 2 ^ (max e (emin f) - (p - 1) : Int)) :
    ∃ m1, PackRoundings rm f p s x e m1 n ∧ carriedExp p e m1 = e := by
  have hfine : x = (n * 2 ^ (max e (emin f) - e).toNat : Nat) * 2 ^ (e - (p - 1) : Int) := by
    rw [Nat.cast_mul, mul_assoc, natCast_two_pow_mul_zpow, hx]
    congr 2
    omega
  have hcarry : n * 2 ^ (max e (emin f) - e).toNat ≠ 2 ^ p := by
    intro heq
    rw [heq, natCast_two_pow_mul_zpow, show (e - (p - 1) + p : Int) = e + 1 by omega] at hfine
    exact hlt.ne hfine
  exact ⟨_, ⟨hle, hlt, roundsTo_self hfine, roundsTo_self hx⟩, if_neg hcarry⟩

/-- Settles O37: a member rounds to itself, and its two descriptions pack alike. -/
theorem membersAreReturnedUnchanged : Obligations.MembersAreReturnedUnchanged := by
  intro P c f p s sig exp hp hP hpos hmem
  obtain ⟨-, hprec⟩ := precision_bounds hp
  have hmember := hmem.mono hprec
  obtain ⟨e, n, hle, hlt, hmax, hv⟩ := hmem
  have hn : 1 ≤ n := (scaled_pos_iff ..).mp (hv ▸ (zpow_pos two_pos e).trans_le hle)
  have hd : DescribesAt p sig exp false ((sig : ℝ) * 2 ^ exp) := ⟨hpos, describes_exact_iff.mpr rfl, by simp⟩
  have hlow : (2 : ℝ) ^ e ≤ sig * 2 ^ exp := by rify at hle; exact hle
  have hhigh : (sig : ℝ) * 2 ^ exp < 2 ^ (e + 1) := by rify at hlt; exact hlt
  have hx : (sig : ℝ) * 2 ^ exp = n * 2 ^ (max e (emin f) - (p - 1) : Int) := by rify at hv; exact hv
  obtain ⟨m1, h, hcarry⟩ := packRoundings_of_multiple c.rm s hlow hhigh hx
  have htiny : (sig : ℚ) * 2 ^ exp < 2 ^ emin f ↔ e < emin f := by
    constructor
    · exact fun hbelow => (zpow_lt_zpow_iff_right₀ one_lt_two).mp (hle.trans_lt hbelow)
    · exact fun hbelow => hlt.trans_le (zpow_le_zpow_right₀ one_le_two hbelow)
  rw [roundPack_eq_packRounded hd h, hcarry]
  simp only [htiny]
  split
  case isTrue hflush => exact packRounded_of_flush hflush.1 hflush.2
  case isFalse hkeep =>
    rw [packRounded_of_deliver hmax hkeep, deliver_exact hP hn hx,
      packFinite_congr s hpos hn hmember hv]
    rfl

end Sys2Proof.Machine
end

section
/-! PROOFS. FADD and FSUB of operands that are not NaNs (42_adder.md R110 to R123): the branches of AddCore, and the
exact sum behind the last of them. -/

namespace Sys2Proof.Machine

/-! ### Classes and fields of an operand -/

theorem unsupported_of_not_isNaN {f : Fmt} {a : Word80} (h : isNaN f a = false) : unsupported f a = false := by
  cases f with
  | X =>
    rw [← Bool.not_eq_true] at h ⊢
    exact fun hu => h ((isNaN_X_iff a).mpr (.inl hu))
  | S | D => rfl

theorem isNaN_of_isInf {f : Fmt} {a : Word80} (h : isInf f a = true) : isNaN f a = false := by
  have hclass := isFinite_or_isInf_or_isNaN f a
  simp_all

theorem isNaN_of_isFinite {f : Fmt} {a : Word80} (h : isFinite f a = true) : isNaN f a = false := by
  have hclass := isFinite_or_isInf_or_isNaN f a
  simp_all

theorem isInf_of_isFinite {f : Fmt} {a : Word80} (h : isFinite f a = true) : isInf f a = false := by
  have hclass := isFinite_or_isInf_or_isNaN f a
  simp_all

theorem isFinite_of_not_isNaN_of_not_isInf {f : Fmt} {a : Word80} (hnan : isNaN f a = false)
    (hinf : isInf f a = false) : isFinite f a = true := by
  have hclass := isFinite_or_isInf_or_isNaN f a
  simp_all

/-- An infinity has the all-ones exponent, no fraction and, in extended80, a set integer bit (40_codec.md R65, R66). -/
theorem fields_of_isInf {f : Fmt} {a : Word80} (h : isInf f a = true) :
    expOf f a = expMax f ∧ fracOf f a = 0 ∧ (f = .X → jBit a = true) := by
  cases f with
  | S | D | X =>
    unfold isInf classify at h
    dsimp only at h
    split_ifs at h <;> simp_all

/-- There is one infinity of each sign. -/
theorem eq_packInf_of_isInf {f : Fmt} {a : Word80} (hlt : a.toNat < 2 ^ fmtBits f) (h : isInf f a = true) :
    a = packInf f (signOf f a) := by
  obtain ⟨hexp, hfrac, hj⟩ := fields_of_isInf h
  have hfields := mkPacked_of_fields f a hlt
  rw [hexp] at hfields
  cases f with
  | S | D =>
    rw [← fracOf_of_ne_X (by decide), hfrac] at hfields
    exact hfields.symm
  | X =>
    have hge := (jBit_eq_true_iff a).mp (hj rfl)
    have hsig : sigOf .X a = 2 ^ 63 := by
      rw [fracOf, BitVec.extractLsb'_toNat] at hfrac
      rw [sigOf, BitVec.extractLsb'_toNat] at hge ⊢
      simp only [fracBits, precBits, sigBits] at hfrac hge ⊢
      omega
    rw [hsig] at hfields
    exact hfields.symm

theorem unpack_m_of_expOf_eq_zero {f : Fmt} {a : Word80} (h : expOf f a = 0) : (unpack f a).m = sigOf f a := by
  cases f with
  | X => rfl
  | S | D => rw [unpack_m_of_ne_X (by decide), if_pos h]

/-- Of the finite values the zeros alone have no significand. -/
theorem unpack_m_eq_zero_iff {f : Fmt} {a : Word80} (h : isFinite f a = true) :
    (unpack f a).m = 0 ↔ isZero f a = true := by
  cases hclass : classify f a with
  | zero =>
    obtain ⟨hexp, hsig⟩ := (classify_eq_zero_iff f a).mp hclass
    simp [isZero, hclass, unpack_m_of_expOf_eq_zero hexp, hsig]
  | denormal =>
    obtain ⟨hexp, hsig⟩ := (classify_eq_denormal_iff f a).mp hclass
    simp [isZero, hclass, unpack_m_of_expOf_eq_zero hexp, hsig]
  | normalized =>
    have hpos := (finiteFields_of_normalized hclass).significand_pos
    simp [isZero, hclass, Nat.one_le_iff_ne_zero.mp hpos]
  | nan | negInfinity | posInfinity => simp [isFinite, hclass] at h

theorem denormal2_comm (f : Fmt) (a b : Word80) : denormal2 f a b = denormal2 f b a := by
  rw [denormal2, denormal2, Bool.or_comm]

/-! ### The branches of AddCore -/

section
variable {P : Config.Params} {c : Context} {f : Fmt} {a b : Word80} {neg : Bool}

theorem addCore_of_opposite_infinities (ha : isInf f a = true) (hb : isInf f b = true)
    (hs : signOf f a ≠ (signOf f b ^^ neg)) : addCore P c f a b neg = invalidResult P f := by
  have hna := isNaN_of_isInf ha
  have hnb := isNaN_of_isInf hb
  simp [addCore, hna, hnb, unsupported_of_not_isNaN, ha, hb, hs]

theorem addCore_of_first_infinite (ha : isInf f a = true) (hnb : isNaN f b = false)
    (hs : isInf f b = true → signOf f a = (signOf f b ^^ neg)) :
    addCore P c f a b neg = { value := a, flags := denormal2 f a b } := by
  have hna := isNaN_of_isInf ha
  simp +contextual [addCore, hna, hnb, unsupported_of_not_isNaN, ha, hs]

theorem addCore_of_second_infinite (hna : isNaN f a = false) (ha : isInf f a = false) (hb : isInf f b = true) :
    addCore P c f a b neg = { value := packInf f (signOf f b ^^ neg), flags := denormal2 f a b } := by
  have hnb := isNaN_of_isInf hb
  simp [addCore, hna, hnb, unsupported_of_not_isNaN, ha, hb]

theorem addCore_of_isFinite (ha : isFinite f a = true) (hb : isFinite f b = true) :
    addCore P c f a b neg =
      (addFinite P c f (signOf f a) (signOf f b ^^ neg) (unpack f a) (unpack f b)).also (denormal2 f a b) := by
  have hna := isNaN_of_isFinite ha
  have hnb := isNaN_of_isFinite hb
  simp [addCore, hna, hnb, unsupported_of_not_isNaN, isInf_of_isFinite ha, isInf_of_isFinite hb]

end

/-- FADD and FSUB complete with AddCore of their operands (R110). -/
theorem completes_add {neg : Bool} {f : Fmt} {s : State} {c : Context} {r : Result}
    (hr : ReadyUnder (if neg then fsubI f else faddI f) s c)
    (h : addCore Config.fpe1 c f (opA f s) (opB f s) neg = r) :
    Completes (if neg then fsubI f else faddI f) s r := by
  cases neg with
  | false => exact (Computes.fadd f).completes_of_eq hr h
  | true => exact (Computes.fsub f).completes_of_eq hr h

/-- Settles O40, by the branches of AddCore for an infinity. -/
theorem sumsWithAnInfinity : Obligations.SumsWithAnInfinity := by
  intro neg f s hready hna hnb sb d
  obtain ⟨c, hr⟩ := hready.exists_context
  refine ⟨fun ha hb hs => ?opposite, fun ha hs => ?first, fun ha hb => ?second⟩
  case opposite => exact completes_add hr (addCore_of_opposite_infinities ha hb hs)
  case first => exact completes_add hr (addCore_of_first_infinite ha hnb hs)
  case second => exact completes_add hr (addCore_of_second_infinite hna ha hb)

/-! ### The exact sum -/

theorem signFactor_xor (s t : Bool) : signFactor (s ^^ t) = signFactor s * signFactor t := by
  cases s <;> cases t <;> simp [signFactor]

theorem signedInt_cast (s : Bool) (m : Nat) : (signedInt s m : ℚ) = signFactor s * m := by
  cases s <;> simp [signFactor]

/-- Aligning a significand to a smaller quantum keeps its value. -/
theorem signedInt_aligned {q k : Int} (h : k ≤ q) (s : Bool) (m : Nat) :
    (signedInt s (m * 2 ^ (q - k).toNat) : ℚ) * 2 ^ k = signFactor s * m * 2 ^ q := by
  have hshift : q = ((q - k).toNat : Int) + k := by omega
  conv_rhs => rw [hshift, zpow_add₀ two_ne_zero, zpow_natCast]
  rw [signedInt_cast]
  push_cast
  ring

/-- `T * 2^q` of R112 is the exact sum (R114). -/
theorem exactSum_eq (sa sb : Bool) (ua ub : Unpacked) :
    (exactSum sa sb ua ub : ℚ) * 2 ^ min ua.q ub.q =
      signFactor sa * ua.m * 2 ^ ua.q + signFactor sb * ub.m * 2 ^ ub.q := by
  rw [exactSum, Int.cast_add, add_mul, signedInt_aligned (min_le_left ..), signedInt_aligned (min_le_right ..)]

theorem exactSum_unpack (f : Fmt) (a b : Word80) (neg : Bool) :
    (exactSum (signOf f a) (signOf f b ^^ neg) (unpack f a) (unpack f b) : ℚ) *
      2 ^ min (unpack f a).q (unpack f b).q = val f a + signFactor neg * val f b := by
  rw [exactSum_eq, signFactor_xor, val, val, unpack_sign, unpack_sign]
  ring

theorem exactSum_comm (sa sb : Bool) (ua ub : Unpacked) : exactSum sa sb ua ub = exactSum sb sa ub ua := by
  rw [exactSum, exactSum, min_comm, add_comm]

theorem zeroSumSign_comm (rm : Rounding) (ma mb : Nat) (sa sb : Bool) :
    zeroSumSign rm ma mb sa sb = zeroSumSign rm mb ma sb sa := by
  unfold zeroSumSign
  split <;> split <;> simp_all

/-- The sign of a zero sum by the classes of the operands (R113). -/
theorem zeroSumSign_unpack {f : Fmt} {a b : Word80} (ha : isFinite f a = true) (hb : isFinite f b = true)
    (rm : Rounding) (sa sb : Bool) : zeroSumSign rm (unpack f a).m (unpack f b).m sa sb =
      if isZero f a = true ∧ isZero f b = true ∧ sa = sb then sa else decide (rm = .towardNegative) :=
  if_congr (and_congr (unpack_m_eq_zero_iff ha) (and_congr_left' (unpack_m_eq_zero_iff hb))) rfl rfl

section
variable {P : Config.Params} {c : Context} {f : Fmt} {sa sb : Bool} {ua ub : Unpacked}

theorem addFinite_of_zero (h : exactSum sa sb ua ub = 0) :
    addFinite P c f sa sb ua ub = { value := packZero f (zeroSumSign c.rm ua.m ub.m sa sb), flags := 0#16 } :=
  if_pos h

theorem addFinite_of_ne_zero (h : exactSum sa sb ua ub ≠ 0) :
    addFinite P c f sa sb ua ub =
      roundPack P c f (arithPrec c f) (decide (exactSum sa sb ua ub < 0)) (exactSum sa sb ua ub).natAbs
        (min ua.q ub.q) false :=
  if_neg h

end

theorem addFinite_comm (P : Config.Params) (c : Context) (f : Fmt) (sa sb : Bool) (ua ub : Unpacked) :
    addFinite P c f sa sb ua ub = addFinite P c f sb sa ub ua := by
  rw [addFinite, addFinite, exactSum_comm, zeroSumSign_comm, min_comm]

/-! ### Zero sums -/

/-- Settles O39: the sum is zero where its numerator is, and a finite value is a zero where its significand is. -/
theorem zeroSumsTakeTheirSignByMode : Obligations.ZeroSumsTakeTheirSignByMode := by
  intro neg f s c hr ha hb hzero
  have hsum := exactSum_unpack f (opA f s) (opB f s) neg
  rw [hzero, mul_eq_zero, or_iff_left (zpow_ne_zero _ two_ne_zero), Int.cast_eq_zero] at hsum
  refine completes_add hr ?_
  rw [addCore_of_isFinite ha hb, addFinite_of_zero hsum, zeroSumSign_unpack ha hb, Result.also, BitVec.or_zero]
  rfl

/-- Settles O42, as a case of O39 and of O40: the operands have one value and opposite effective signs. -/
theorem subtractingAValueFromItself : Obligations.SubtractingAValueFromItself := by
  intro f s c hr hsame
  have hopposite : signOf f (opA f s) ≠ (signOf f (opB f s) ^^ true) := by simp [hsame]
  refine ⟨fun ha => ?finite, fun ha => ?infinite⟩
  case finite =>
    have hzero : val f (opA f s) + signFactor true * val f (opB f s) = 0 := by simp [hsame, signFactor]
    have h : Completes (fsubI f) s _ := zeroSumsTakeTheirSignByMode true f s c hr ha (hsame ▸ ha) hzero
    have hsigns : ¬ (isZero f (opA f s) = true ∧ isZero f (opB f s) = true ∧
        signOf f (opA f s) = (signOf f (opB f s) ^^ true)) := fun ⟨_, _, hsign⟩ => hopposite hsign
    rwa [if_neg hsigns, ← hsame, Bool.or_self] at h
  case infinite =>
    have hnan := isNaN_of_isInf ha
    obtain ⟨hinvalid, -, -⟩ := sumsWithAnInfinity true f s hr.ready hnan (hsame ▸ hnan)
    exact hinvalid ha (hsame ▸ ha) hopposite

/-! ### Commutativity -/

/-- The infinity of the first operand is also the result where it is the second. -/
theorem addCore_comm_of_isInf (P : Config.Params) (c : Context) {f : Fmt} {a b : Word80}
    (hlta : a.toNat < 2 ^ fmtBits f) (hltb : b.toNat < 2 ^ fmtBits f) (ha : isInf f a = true)
    (hnb : isNaN f b = false) : addCore P c f a b false = addCore P c f b a false := by
  cases hb : isInf f b with
  | false =>
    rw [addCore_of_first_infinite ha hnb (by simp [hb]), addCore_of_second_infinite hnb hb ha, denormal2_comm,
      Bool.xor_false, ← eq_packInf_of_isInf hlta ha]
  | true =>
    by_cases hs : signOf f a = signOf f b
    · rw [eq_packInf_of_isInf hlta ha, eq_packInf_of_isInf hltb hb, hs]
    · rw [addCore_of_opposite_infinities ha hb (by simpa using hs),
        addCore_of_opposite_infinities hb ha (by simpa using Ne.symm hs)]

theorem addCore_comm (P : Config.Params) (c : Context) {f : Fmt} {a b : Word80} (hlta : a.toNat < 2 ^ fmtBits f)
    (hltb : b.toNat < 2 ^ fmtBits f) (hna : isNaN f a = false) (hnb : isNaN f b = false) :
    addCore P c f a b false = addCore P c f b a false := by
  cases ha : isInf f a with
  | true => exact addCore_comm_of_isInf P c hlta hltb ha hnb
  | false =>
    cases hb : isInf f b with
    | true => exact (addCore_comm_of_isInf P c hltb hlta hb hna).symm
    | false =>
      have hfa := isFinite_of_not_isNaN_of_not_isInf hna ha
      have hfb := isFinite_of_not_isNaN_of_not_isInf hnb hb
      rw [addCore_of_isFinite hfa hfb, addCore_of_isFinite hfb hfa, addFinite_comm, denormal2_comm, Bool.xor_false,
        Bool.xor_false]

/-- Settles O41: the state with OPA and OPB exchanged gives AddCore its operands in the other order. -/
theorem additionCommutes : Obligations.AdditionCommutes := by
  intro f s hready hna hnb
  obtain ⟨c, hr⟩ := hready.exists_context
  have hr' : ReadyUnder (faddI f) { s with opa := s.opb, opb := s.opa } c := hr
  exact (Computes.fadd f).completes_alike hr hr' (addCore_comm _ c (fltOperand_lt ..) (fltOperand_lt ..) hna hnb)

/-! ### Nonzero sums -/

theorem one_le_arithPrec (c : Context) (f : Fmt) : 1 ≤ arithPrec c f := by
  cases f with
  | S => exact (by decide : 1 ≤ precBits .S)
  | D => exact (by decide : 1 ≤ precBits .D)
  | X =>
    change 1 ≤ c.prec.bits
    cases c.prec <;> decide

/-- Two exact descriptions of one positive rational magnitude round alike (41_rounder.md R108). -/
theorem roundPack_congr_of_exact (P : Config.Params) (c : Context) (f : Fmt) {p sig sig' : Nat} (s : Bool)
    {exp exp' : Int} {v : ℚ} (hp : 1 ≤ p) (hv : 0 < v) (h : (sig : ℚ) * 2 ^ exp = v)
    (h' : (sig' : ℚ) * 2 ^ exp' = v) : roundPack P c f p s sig exp false = roundPack P c f p s sig' exp' false := by
  have hpos : 1 ≤ sig := (scaled_pos_iff sig exp).mp (h ▸ hv)
  have hpos' : 1 ≤ sig' := (scaled_pos_iff sig' exp').mp (h' ▸ hv)
  have hdesc : Describes sig exp false (v : ℝ) := by rw [describes_exact_iff, ← h]; push_cast; rfl
  have hdesc' : Describes sig' exp' false (v : ℝ) := by rw [describes_exact_iff, ← h']; push_cast; rfl
  exact roundPackDependsOnTheValueOnly P c f p s sig sig' exp exp' false false v hp hpos hpos' hdesc hdesc'
    (by simp) (by simp)

/-- The numerator of the exact sum has its sign and, with the common quantum, describes its magnitude. -/
theorem addFinite_eq_roundPack (P : Config.Params) (c : Context) (f : Fmt) {sa sb : Bool} {ua ub : Unpacked} {x : ℚ}
    {sig : Nat} {exp : Int} (hsum : (exactSum sa sb ua ub : ℚ) * 2 ^ min ua.q ub.q = x) (hx : x ≠ 0)
    (hdesc : (sig : ℚ) * 2 ^ exp = |x|) :
    addFinite P c f sa sb ua ub = roundPack P c f (arithPrec c f) (decide (x < 0)) sig exp false := by
  have hscale : (0 : ℚ) < 2 ^ min ua.q ub.q := zpow_pos two_pos _
  have hne : exactSum sa sb ua ub ≠ 0 := by
    intro hzero
    rw [hzero, Int.cast_zero, zero_mul] at hsum
    exact hx hsum.symm
  have hsign : exactSum sa sb ua ub < 0 ↔ x < 0 := by
    rw [← hsum, ← not_le, ← not_le, mul_nonneg_iff_of_pos_right hscale, Int.cast_nonneg_iff]
  have hmagnitude : ((exactSum sa sb ua ub).natAbs : ℚ) * 2 ^ min ua.q ub.q = |x| := by
    rw [← hsum, abs_mul, abs_of_pos hscale, Nat.cast_natAbs, Int.cast_abs]
  rw [addFinite_of_ne_zero hne, decide_eq_decide.mpr hsign]
  exact roundPack_congr_of_exact P c f _ (one_le_arithPrec c f) (abs_pos.mpr hx) hmagnitude hdesc

/-- Settles O38: the last branch of AddCore rounds the exact sum. -/
theorem addAndSubtractRoundTheExactSum : Obligations.AddAndSubtractRoundTheExactSum := by
  intro neg f s c sig exp hr ha hb x hx hdesc
  refine completes_add hr ?_
  rw [addCore_of_isFinite ha hb, addFinite_eq_roundPack _ c f (exactSum_unpack ..) hx hdesc]

end Sys2Proof.Machine
end

section
/-! PROOFS. FMUL of operands that are not NaNs (43_multiplier.md R125 to R131): the branches of MulCore, which leave no
case out, and the exact product behind the last of them. -/

namespace Sys2Proof.Machine

/-! ### The branches of MulCore -/

theorem isZero_of_isInf {f : Fmt} {a : Word80} (h : isInf f a = true) : isZero f a = false := by
  cases hclass : classify f a with
  | zero | nan | denormal | normalized => simp [isInf, hclass] at h
  | negInfinity | posInfinity => simp [isZero, hclass]

theorem isInf_of_isZero {f : Fmt} {a : Word80} (h : isZero f a = true) : isInf f a = false := by
  rw [← Bool.not_eq_true]
  exact fun hinf => by simp [isZero_of_isInf hinf] at h

section
variable {P : Config.Params} {c : Context} {f : Fmt} {a b : Word80}

theorem mulCore_of_zero_times_infinity
    (h : isZero f a = true ∧ isInf f b = true ∨ isInf f a = true ∧ isZero f b = true)
    (hna : isNaN f a = false) (hnb : isNaN f b = false) : mulCore P c f a b = invalidResult P f := by
  obtain ⟨ha, hb⟩ | ⟨ha, hb⟩ := h <;> simp [mulCore, hna, hnb, unsupported_of_not_isNaN, ha, hb]

theorem mulCore_of_infinity (h : isInf f a = true ∧ isZero f b = false ∨ isZero f a = false ∧ isInf f b = true)
    (hna : isNaN f a = false) (hnb : isNaN f b = false) :
    mulCore P c f a b = { value := packInf f (signOf f a ^^ signOf f b), flags := denormal2 f a b } := by
  obtain ⟨ha, hb⟩ | ⟨ha, hb⟩ := h
  · simp [mulCore, hna, hnb, unsupported_of_not_isNaN, ha, hb, isZero_of_isInf ha]
  · simp [mulCore, hna, hnb, unsupported_of_not_isNaN, ha, hb, isZero_of_isInf hb]

theorem mulCore_of_zero (h : isZero f a = true ∧ isInf f b = false ∨ isInf f a = false ∧ isZero f b = true)
    (hna : isNaN f a = false) (hnb : isNaN f b = false) :
    mulCore P c f a b = { value := packZero f (signOf f a ^^ signOf f b), flags := denormal2 f a b } := by
  obtain ⟨ha, hb⟩ | ⟨ha, hb⟩ := h
  · simp [mulCore, hna, hnb, unsupported_of_not_isNaN, ha, hb, isInf_of_isZero ha]
  · simp [mulCore, hna, hnb, unsupported_of_not_isNaN, ha, hb, isInf_of_isZero hb]

theorem mulCore_of_isFinite (ha : isFinite f a = true) (hb : isFinite f b = true) (hza : isZero f a = false)
    (hzb : isZero f b = false) :
    mulCore P c f a b =
      (roundPack P c f (arithPrec c f) (signOf f a ^^ signOf f b) ((unpack f a).m * (unpack f b).m)
        ((unpack f a).q + (unpack f b).q) false).also (denormal2 f a b) := by
  have hna := isNaN_of_isFinite ha
  have hnb := isNaN_of_isFinite hb
  simp [mulCore, hna, hnb, unsupported_of_not_isNaN, isInf_of_isFinite ha, isInf_of_isFinite hb, hza, hzb]

end

/-- Settles O44, by the branches of MulCore for an infinity or a zero. -/
theorem productsWithZeroOrInfinity : Obligations.ProductsWithZeroOrInfinity := by
  intro f s hready hna hnb sz d
  obtain ⟨c, hr⟩ := hready.exists_context
  refine ⟨fun h => ?invalid, fun h => ?infinity, fun h => ?zero⟩
  case invalid => exact (Computes.fmul f).completes_of_eq hr (mulCore_of_zero_times_infinity h hna hnb)
  case infinity => exact (Computes.fmul f).completes_of_eq hr (mulCore_of_infinity h hna hnb)
  case zero => exact (Computes.fmul f).completes_of_eq hr (mulCore_of_zero h hna hnb)

/-! ### The exact product -/

theorem abs_signFactor (s : Bool) : |signFactor s| = 1 := by
  cases s <;> simp [signFactor]

theorem abs_val (f : Fmt) (a : Word80) : |val f a| = (unpack f a).m * 2 ^ (unpack f a).q := by
  have hscale : (0 : ℚ) < 2 ^ (unpack f a).q := zpow_pos two_pos _
  rw [val, abs_mul, abs_mul, abs_signFactor, one_mul, Nat.abs_cast, abs_of_pos hscale]

theorem abs_val_pos {f : Fmt} {a : Word80} (ha : isFinite f a = true) (hza : isZero f a = false) : 0 < |val f a| := by
  have hm : (unpack f a).m ≠ 0 := mt (unpack_m_eq_zero_iff ha).mp (by simp [hza])
  rw [abs_val, scaled_pos_iff]
  exact Nat.one_le_iff_ne_zero.mpr hm

/-- The product of the significands, with the sum of the quanta, describes the exact product (R126). -/
theorem abs_val_mul (f : Fmt) (a b : Word80) :
    (((unpack f a).m * (unpack f b).m : Nat) : ℚ) * 2 ^ ((unpack f a).q + (unpack f b).q) = |val f a * val f b| := by
  rw [abs_mul, abs_val, abs_val, zpow_add₀ two_ne_zero, Nat.cast_mul, mul_mul_mul_comm]

/-- Settles O43: the last branch of MulCore rounds the exact product. -/
theorem multiplyRoundsTheExactProduct : Obligations.MultiplyRoundsTheExactProduct := by
  intro f s c sig exp hr ha hb hza hzb hdesc
  have hpos : 0 < |val f (opA f s) * val f (opB f s)| := by
    rw [abs_mul]
    exact mul_pos (abs_val_pos ha hza) (abs_val_pos hb hzb)
  refine (Computes.fmul f).completes_of_eq hr ((mulCore_of_isFinite ha hb hza hzb).trans ?_)
  rw [roundPack_congr_of_exact _ c f _ (one_le_arithPrec c f) hpos (abs_val_mul f _ _) hdesc]

/-! ### Commutativity -/

/-- Operands that are not NaNs meet one of the branches of MulCore. -/
theorem mul_operands_cases {f : Fmt} {a b : Word80} (hna : isNaN f a = false) (hnb : isNaN f b = false) :
    (isZero f a = true ∧ isInf f b = true ∨ isInf f a = true ∧ isZero f b = true) ∨
    (isInf f a = true ∧ isZero f b = false ∨ isZero f a = false ∧ isInf f b = true) ∨
    (isZero f a = true ∧ isInf f b = false ∨ isInf f a = false ∧ isZero f b = true) ∨
    (isFinite f a = true ∧ isFinite f b = true ∧ isZero f a = false ∧ isZero f b = false) := by
  cases hia : isInf f a with
  | true => cases hzb : isZero f b <;> simp
  | false =>
    cases hib : isInf f b with
    | true => cases hza : isZero f a <;> simp
    | false =>
      have ha := isFinite_of_not_isNaN_of_not_isInf hna hia
      have hb := isFinite_of_not_isNaN_of_not_isInf hnb hib
      cases hza : isZero f a <;> cases hzb : isZero f b <;> simp [ha, hb]

theorem mulCore_comm (P : Config.Params) (c : Context) {f : Fmt} {a b : Word80} (hna : isNaN f a = false)
    (hnb : isNaN f b = false) : mulCore P c f a b = mulCore P c f b a := by
  obtain h | h | h | ⟨ha, hb, hza, hzb⟩ := mul_operands_cases hna hnb
  · rw [mulCore_of_zero_times_infinity h hna hnb,
      mulCore_of_zero_times_infinity (h.symm.imp And.symm And.symm) hnb hna]
  · rw [mulCore_of_infinity h hna hnb, mulCore_of_infinity (h.symm.imp And.symm And.symm) hnb hna, Bool.xor_comm,
      denormal2_comm]
  · rw [mulCore_of_zero h hna hnb, mulCore_of_zero (h.symm.imp And.symm And.symm) hnb hna, Bool.xor_comm,
      denormal2_comm]
  · rw [mulCore_of_isFinite ha hb hza hzb, mulCore_of_isFinite hb ha hzb hza, Bool.xor_comm, denormal2_comm,
      Nat.mul_comm, add_comm]

/-- Settles O45: the state with OPA and OPB exchanged gives MulCore its operands in the other order. -/
theorem multiplicationCommutes : Obligations.MultiplicationCommutes := by
  intro f s hready hna hnb
  obtain ⟨c, hr⟩ := hready.exists_context
  have hr' : ReadyUnder (fmulI f) { s with opa := s.opb, opb := s.opa } c := hr
  exact (Computes.fmul f).completes_alike hr hr' (mulCore_comm _ c hna hnb)

end Sys2Proof.Machine
end

section
/-! PROOFS. FDIV of operands that are not NaNs (44_divider.md R135 to R141): the branches of DivCore, and the exact
quotient behind the last of them. -/

namespace Sys2Proof.Machine

/-! ### The branches of DivCore -/

section
variable {P : Config.Params} {c : Context} {f : Fmt} {a b : Word80}

theorem divCore_of_indeterminate
    (h : isZero f a = true ∧ isZero f b = true ∨ isInf f a = true ∧ isInf f b = true)
    (hna : isNaN f a = false) (hnb : isNaN f b = false) : divCore P c f a b = invalidResult P f := by
  obtain ⟨ha, hb⟩ | ⟨ha, hb⟩ := h <;> simp [divCore, hna, hnb, unsupported_of_not_isNaN, ha, hb]

/-- The zero divisor comes before the denormal check: a subnormal dividend adds no flag (R136). -/
theorem divCore_of_zero_divisor (ha : isFinite f a = true) (hza : isZero f a = false) (hzb : isZero f b = true)
    (hnb : isNaN f b = false) :
    divCore P c f a b = { value := packInf f (signOf f a ^^ signOf f b), flags := raise [.divbyzero] } := by
  have hna := isNaN_of_isFinite ha
  simp [divCore, hna, hnb, unsupported_of_not_isNaN, isInf_of_isFinite ha, hza, hzb]

/-- An infinite dividend raises no `divbyzero`, over a zero either. -/
theorem divCore_of_infinite_dividend (ha : isInf f a = true) (hb : isInf f b = false) (hnb : isNaN f b = false) :
    divCore P c f a b = { value := packInf f (signOf f a ^^ signOf f b), flags := denormal2 f a b } := by
  have hna := isNaN_of_isInf ha
  simp [divCore, hna, hnb, unsupported_of_not_isNaN, isZero_of_isInf ha, ha, hb]

theorem divCore_of_infinite_divisor (ha : isInf f a = false) (hb : isInf f b = true) (hna : isNaN f a = false) :
    divCore P c f a b = { value := packZero f (signOf f a ^^ signOf f b), flags := denormal2 f a b } := by
  have hnb := isNaN_of_isInf hb
  simp [divCore, hna, hnb, unsupported_of_not_isNaN, isZero_of_isInf hb, ha, hb]

theorem divCore_of_zero_dividend (ha : isZero f a = true) (hzb : isZero f b = false) (hna : isNaN f a = false)
    (hnb : isNaN f b = false) :
    divCore P c f a b = { value := packZero f (signOf f a ^^ signOf f b), flags := denormal2 f a b } := by
  simp [divCore, hna, hnb, unsupported_of_not_isNaN, isInf_of_isZero ha, ha, hzb]

theorem divCore_of_isFinite (ha : isFinite f a = true) (hb : isFinite f b = true) (hza : isZero f a = false)
    (hzb : isZero f b = false) :
    divCore P c f a b =
      (divFinite P c f (signOf f a ^^ signOf f b) (unpack f a) (unpack f b)).also (denormal2 f a b) := by
  have hna := isNaN_of_isFinite ha
  have hnb := isNaN_of_isFinite hb
  simp [divCore, hna, hnb, unsupported_of_not_isNaN, isInf_of_isFinite ha, isInf_of_isFinite hb, hza, hzb]

end

/-- Settles O47, by the branches of DivCore for an infinity or a zero. -/
theorem quotientsWithZeroOrInfinity : Obligations.QuotientsWithZeroOrInfinity := by
  intro f s hready hna hnb sz d
  obtain ⟨c, hr⟩ := hready.exists_context
  refine ⟨fun h => ?invalid, fun ha hza hzb => ?divbyzero, fun ha hb => ?infinity, fun h => ?zero⟩
  case invalid => exact (Computes.fdiv f).completes_of_eq hr (divCore_of_indeterminate h hna hnb)
  case divbyzero => exact (Computes.fdiv f).completes_of_eq hr (divCore_of_zero_divisor ha hza hzb hnb)
  case infinity => exact (Computes.fdiv f).completes_of_eq hr (divCore_of_infinite_dividend ha hb hnb)
  case zero =>
    obtain ⟨ha, hb⟩ | ⟨ha, hzb⟩ := h
    · exact (Computes.fdiv f).completes_of_eq hr (divCore_of_infinite_divisor ha hb hna)
    · exact (Computes.fdiv f).completes_of_eq hr (divCore_of_zero_dividend ha hzb hna hnb)

/-! ### The exact quotient -/

/-- A division truncated to an integer, with a sticky bit for a remainder, describes the exact quotient (41_rounder.md
R90). -/
theorem describes_div (n : Nat) {d : Nat} (hd : 0 < d) (e : Int) :
    Describes (n / d) e (n % d != 0) ((n / d * 2 ^ e : ℚ) : ℝ) := by
  have hd' : (0 : ℝ) < d := Nat.cast_pos.mpr hd
  have hscale : (0 : ℝ) < 2 ^ e := zpow_pos two_pos e
  have hsplit : (n : ℝ) = (n / d : Nat) * d + (n % d : Nat) := by exact_mod_cast (Nat.div_add_mod' n d).symm
  push_cast
  obtain hzero | hpos := Nat.eq_zero_or_pos (n % d)
  · rw [hzero, Nat.cast_zero, add_zero] at hsplit
    rw [hzero, bne_self_eq_false, describes_exact_iff]
    conv_lhs => rw [hsplit, mul_div_cancel_right₀ _ hd'.ne']
  · have hpos' : (0 : ℝ) < (n % d : Nat) := Nat.cast_pos.mpr hpos
    have hlt : ((n % d : Nat) : ℝ) < d := Nat.cast_lt.mpr (Nat.mod_lt n hd)
    rw [bne_iff_ne.mpr hpos.ne', describes_sticky_iff, mul_lt_mul_iff_left₀ hscale, mul_lt_mul_iff_left₀ hscale,
      lt_div_iff₀ hd', div_lt_iff₀ hd']
    constructor <;> linarith

theorem unpack_m_lt (f : Fmt) (a : Word80) : (unpack f a).m < 2 ^ precBits f := by
  have hsig := sigOf_lt f a
  cases f with
  | X => exact hsig
  | S | D =>
    rw [unpack_m_of_ne_X (by decide)]
    simp only [sigBits, fracBits, precBits] at hsig ⊢
    split <;> omega

theorem unpack_m_pos {f : Fmt} {a : Word80} (ha : isFinite f a = true) (hza : isZero f a = false) :
    0 < (unpack f a).m :=
  Nat.pos_of_ne_zero (mt (unpack_m_eq_zero_iff ha).mp (by simp [hza]))

/-- The precisions of arithmetic are among those of RoundPack (41_rounder.md R90, R104). -/
theorem arithPrec_cases (c : Context) (f : Fmt) :
    arithPrec c f = precBits f ∨ (f = .X ∧ (arithPrec c f = 24 ∨ arithPrec c f = 53)) := by
  cases f with
  | S | D => exact .inl rfl
  | X =>
    change c.prec.bits = 64 ∨ _ ∧ (c.prec.bits = 24 ∨ c.prec.bits = 53)
    cases c.prec <;> simp [Precision.bits]

theorem abs_val_div (f : Fmt) (a b : Word80) (k : Nat) :
    |val f a / val f b| =
      ((unpack f a).m * 2 ^ k : Nat) / (unpack f b).m * 2 ^ ((unpack f a).q - (unpack f b).q - k) := by
  rw [abs_div, abs_val, abs_val, zpow_sub₀ two_ne_zero, zpow_sub₀ two_ne_zero, zpow_natCast]
  push_cast
  field_simp

/-- `2 * w + 2` more bits of the dividend leave more than `w + 2` bits of quotient for every divisor of `w` bits. -/
theorem two_pow_le_quotient {m d w : Nat} (hm : 0 < m) (hd : 0 < d) (hlt : d < 2 ^ w) :
    2 ^ (w + 2) ≤ m * 2 ^ (2 * w + 2) / d := by
  rw [Nat.le_div_iff_mul_le hd]
  calc 2 ^ (w + 2) * d ≤ 2 ^ (w + 2) * 2 ^ w := Nat.mul_le_mul_left _ hlt.le
    _ = 2 ^ (2 * w + 2) := by rw [← pow_add]; congr 1; omega
    _ ≤ m * 2 ^ (2 * w + 2) := Nat.le_mul_of_pos_left _ hm

/-- The truncated quotient of DivCore describes the exact one, long enough for its sticky bit (R136, 41_rounder.md
R91). -/
theorem describesAt_quotient (c : Context) {f : Fmt} {a b : Word80} (ha : isFinite f a = true)
    (hb : isFinite f b = true) (hza : isZero f a = false) (hzb : isZero f b = false) :
    DescribesAt (arithPrec c f) ((unpack f a).m * 2 ^ (2 * precBits f + 2) / (unpack f b).m)
      ((unpack f a).q - (unpack f b).q - (2 * precBits f + 2 : Nat))
      ((unpack f a).m * 2 ^ (2 * precBits f + 2) % (unpack f b).m != 0)
      ((|val f a / val f b| : ℚ) : ℝ) := by
  have hmb := unpack_m_pos hb hzb
  have hlarge := two_pow_le_quotient (unpack_m_pos ha hza) hmb (unpack_m_lt f b)
  have hlong : precBits f + 2 < bitlen ((unpack f a).m * 2 ^ (2 * precBits f + 2) / (unpack f b).m) :=
    (Nat.pow_lt_pow_iff_right one_lt_two).mp (hlarge.trans_lt (lt_two_pow_bitlen _))
  obtain ⟨-, hprec⟩ := precision_bounds (arithPrec_cases c f)
  refine ⟨Nat.one_le_two_pow.trans hlarge, ?_, fun _ => by omega⟩
  rw [abs_val_div f a b (2 * precBits f + 2)]
  exact describes_div _ hmb _

/-- Settles O46: the last branch of DivCore rounds a description of the exact quotient, and RoundPack depends on the
magnitude described only. -/
theorem divideRoundsTheExactQuotient : Obligations.DivideRoundsTheExactQuotient := by
  intro f s c sig exp sticky hr ha hb hza hzb hpos hdesc hlong
  obtain ⟨hqpos, hqdesc, hqlong⟩ := describesAt_quotient c ha hb hza hzb
  refine (Computes.fdiv f).completes_of_eq hr ((divCore_of_isFinite ha hb hza hzb).trans ?_)
  exact congrArg (Result.also · _) (roundPackDependsOnTheValueOnly _ c f _ _ _ _ _ _ _ _ _ (one_le_arithPrec c f) hqpos
    hpos hqdesc hdesc hqlong hlong)

/-! ### The quotient of a value by itself -/

/-- 1 is a member of every format at every precision. -/
theorem isMember_one (f : Fmt) {p : Nat} (hp : 1 ≤ p) : IsMember f p ((1 : Nat) * 2 ^ (0 : Int)) := by
  refine ⟨0, 2 ^ (p - 1), by norm_num, by norm_num, by cases f <;> decide, ?_⟩
  have hmax : max 0 (emin f) = 0 := by cases f <;> decide
  have hexp : (p - 1 : Int) = (p - 1 : Nat) := by omega
  rw [hmax, hexp, zero_sub, zpow_neg, zpow_natCast]
  push_cast
  rw [mul_inv_cancel₀ (pow_ne_zero _ two_ne_zero)]
  norm_num

/-- RoundPack packs an exact 1 as it is, in every mode and precision (41_rounder.md R109). -/
theorem roundPack_one (c : Context) (f : Fmt) (s : Bool) :
    roundPack Config.fpe1 c f (arithPrec c f) s 1 0 false = { value := packFinite f s 1 0, flags := 0#16 } := by
  have hnormal : ¬ ((1 : Nat) : ℚ) * 2 ^ (0 : Int) < 2 ^ emin f := by
    have hmin : emin f ≤ 0 := by cases f <;> decide
    simpa using zpow_le_zpow_right₀ (one_le_two (α := ℚ)) hmin
  rw [membersAreReturnedUnchanged _ c f _ s 1 0 (arithPrec_cases c f) rfl le_rfl
    (isMember_one f (one_le_arithPrec c f)), if_neg fun ⟨hlt, _⟩ => hnormal hlt]
  rfl

/-- The quotient, an exact 1, is described without a sticky bit: a case of O46. -/
theorem completes_div_self {f : Fmt} {s : State} (hready : Ready (fdivI f) s) (hsame : opA f s = opB f s)
    (ha : isFinite f (opA f s) = true) (hza : isZero f (opA f s) = false) :
    Completes (fdivI f) s { value := packFinite f false 1 0, flags := denormal1 f (opA f s) } := by
  obtain ⟨c, hr⟩ := hready.exists_context
  have hne : val f (opA f s) ≠ 0 := abs_pos.mp (abs_val_pos ha hza)
  have hone : Describes 1 0 false ((|val f (opA f s) / val f (opB f s)| : ℚ) : ℝ) := by
    rw [← hsame, div_self hne, describes_exact_iff]
    norm_num
  have h := divideRoundsTheExactQuotient f s c 1 0 false hr ha (hsame ▸ ha) hza (hsame ▸ hza) le_rfl hone (by simp)
  rwa [roundPack_one, ← hsame, Bool.xor_self, Result.also, BitVec.or_zero, denormal2, Bool.or_self] at h

/-- Settles O48: the two classes differ in the flag alone. -/
theorem aValueDividedByItselfIsOne : Obligations.AValueDividedByItselfIsOne := by
  intro f s hready hsame one
  have hone : packFinite f false 1 0 = one := by cases f <;> decide
  refine ⟨fun hclass => ?normalized, fun hdenorm => ?subnormal⟩
  case normalized =>
    have h := completes_div_self hready hsame (by simp [isFinite, hclass]) (by simp [isZero, hclass])
    rwa [hone, denormal1, isDenorm, hclass] at h
  case subnormal =>
    have hclass : classify f (opA f s) = .denormal := by simpa [isDenorm] using hdenorm
    have h := completes_div_self hready hsame (by simp [isFinite, hclass]) (by simp [isZero, hclass])
    rwa [hone, denormal1, hdenorm] at h

end Sys2Proof.Machine
end

section
/-! PROOFS. FSQRT (45_sqrt.md R145 to R147): the branches of SqrtCore, the exact root behind the last of them, and the
range that root keeps to. -/

namespace Sys2Proof.Machine

/-! ### Flags -/

theorem not_hasFlag_zero (fl : Flag) : ¬ HasFlag 0#16 fl := by simp [HasFlag]

theorem hasFlag_raise {fs : List Flag} {fl : Flag} : HasFlag (raise fs) fl ↔ fl ∈ fs := by
  induction fs with
  | nil => simp [raise, not_hasFlag_zero]
  | cons g gs ih =>
    have hbit : HasFlag g.bit fl ↔ fl = g := (hasFlag_raiseIf (b := true)).trans (by simp [eq_comm])
    rw [raise, List.foldr_cons, hasFlag_or, hbit, List.mem_cons]
    exact or_congr_right ih

/-! ### The branches of SqrtCore -/

section
variable {P : Config.Params} {c : Context} {f : Fmt} {a : Word80}

theorem isInf_of_classify_posInfinity (h : classify f a = .posInfinity) : isInf f a = true := by simp [isInf, h]

/-- The class of an infinity tells its sign (40_codec.md R65, R66). -/
theorem signOf_of_classify_posInfinity (h : classify f a = .posInfinity) : signOf f a = false := by
  cases f with
  | S | D | X =>
    unfold classify at h
    dsimp only at h
    split_ifs at h
    simp_all

theorem sqrtCore_of_isZero (hz : isZero f a = true) (hn : isNaN f a = false) :
    sqrtCore P c f a = { value := a, flags := 0#16 } := by
  simp [sqrtCore, hn, unsupported_of_not_isNaN, hz]

theorem sqrtCore_of_posInfinity (h : classify f a = .posInfinity) :
    sqrtCore P c f a = { value := a, flags := 0#16 } := by
  have hinf := isInf_of_classify_posInfinity h
  have hn := isNaN_of_isInf hinf
  simp [sqrtCore, hn, unsupported_of_not_isNaN, isZero_of_isInf hinf, signOf_of_classify_posInfinity h, hinf]

/-- The sign comes before the infinity: the root of −∞ is invalid. -/
theorem sqrtCore_of_negative (hs : signOf f a = true) (hz : isZero f a = false) (hn : isNaN f a = false) :
    sqrtCore P c f a = invalidResult P f := by
  simp [sqrtCore, hn, unsupported_of_not_isNaN, hz, hs]

theorem sqrtCore_of_positive (ha : isFinite f a = true) (hz : isZero f a = false) (hs : signOf f a = false) :
    sqrtCore P c f a = (sqrtFinite P c f (unpack f a)).also (denormal1 f a) := by
  have hn := isNaN_of_isFinite ha
  simp [sqrtCore, hn, unsupported_of_not_isNaN, hz, hs, isInf_of_isFinite ha]

end

/-- Settles O50, by the branches of SqrtCore for a zero, +∞ and a negative operand. -/
theorem squareRootSpecialCases : Obligations.SquareRootSpecialCases := by
  intro f s hready hn
  obtain ⟨c, hr⟩ := hready.exists_context
  refine ⟨fun hz => ?zero, fun hclass => ?infinity, fun hs hz => ?negative⟩
  case zero => exact (Computes.fsqrt f).completes_of_eq hr (sqrtCore_of_isZero hz hn)
  case infinity => exact (Computes.fsqrt f).completes_of_eq hr (sqrtCore_of_posInfinity hclass)
  case negative => exact (Computes.fsqrt f).completes_of_eq hr (sqrtCore_of_negative hs hz hn)

/-! ### The exact root -/

theorem two_zpow_two_mul (e : Int) : (2 : ℝ) ^ (2 * e) = (2 ^ e) ^ 2 := by
  rw [zpow_mul', zpow_ofNat]

theorem sqrt_mul_two_zpow (x : ℝ) (e : Int) : √(x * 2 ^ (2 * e)) = √x * 2 ^ e := by
  rw [two_zpow_two_mul, Real.sqrt_mul' x (sq_nonneg _), Real.sqrt_sq (by positivity)]

/-- The integer root, with a sticky bit where its square falls short, describes the exact root (41_rounder.md R90). -/
theorem describes_isqrt (n : Nat) (e : Int) :
    Describes (isqrt n) e (isqrt n * isqrt n != n) √(n * 2 ^ (2 * e)) := by
  have hscale : (0 : ℝ) < 2 ^ e := zpow_pos two_pos e
  rw [sqrt_mul_two_zpow]
  obtain hlt | heq := (isqrt_sq_le n).lt_or_eq
  · have hlow : (isqrt n : ℝ) * isqrt n < n := by exact_mod_cast hlt
    have hhigh : (n : ℝ) < (isqrt n + 1) * (isqrt n + 1) := by exact_mod_cast lt_isqrt_succ_sq n
    rw [bne_iff_ne.mpr hlt.ne, describes_sticky_iff, mul_lt_mul_iff_left₀ hscale, mul_lt_mul_iff_left₀ hscale,
      Real.lt_sqrt (by positivity), Real.sqrt_lt' (by positivity), sq, sq]
    exact ⟨hlow, hhigh⟩
  · have hroot : √(n : ℝ) = isqrt n := by
      conv_lhs => rw [← heq, Nat.cast_mul, Real.sqrt_mul_self (Nat.cast_nonneg _)]
    rw [heq, bne_self_eq_false, describes_exact_iff, hroot]

/-- `2 * k` more bits of the operand give `k` more bits of root. -/
theorem two_pow_le_isqrt {m : Nat} (hm : 1 ≤ m) (k : Nat) : 2 ^ k ≤ isqrt (m * 2 ^ (2 * k)) := by
  obtain ⟨-, hlargest⟩ := isqrtIsTheLargestRoot (m * 2 ^ (2 * k))
  refine hlargest _ ?_
  calc 2 ^ k * 2 ^ k = 2 ^ (2 * k) := by rw [← pow_add, two_mul]
    _ ≤ m * 2 ^ (2 * k) := Nat.le_mul_of_pos_left _ hm

/-- The integer root of SqrtCore describes the exact one, long enough for its sticky bit (R146, 41_rounder.md R91). -/
theorem describesAt_root (c : Context) (f : Fmt) {m : Nat} (hm : 1 ≤ m) (j : Int) {n k : Nat}
    (hk : k = precBits f + 2) (hn : n = m * 2 ^ (2 * k)) :
    DescribesAt (arithPrec c f) (isqrt n) (j - k) (isqrt n * isqrt n != n) √(m * 2 ^ (2 * j)) := by
  have hlarge : 2 ^ k ≤ isqrt n := hn ▸ two_pow_le_isqrt hm k
  have hlong : k < bitlen (isqrt n) :=
    (Nat.pow_lt_pow_iff_right one_lt_two).mp (hlarge.trans_lt (lt_two_pow_bitlen _))
  obtain ⟨-, hprec⟩ := precision_bounds (arithPrec_cases c f)
  have hvalue : (n : ℝ) * 2 ^ (2 * (j - k)) = m * 2 ^ (2 * j) := by
    rw [hn, Nat.cast_mul, mul_assoc, natCast_two_pow_mul_zpow]
    congr 2
    push_cast
    ring
  exact ⟨Nat.one_le_two_pow.trans hlarge, hvalue ▸ describes_isqrt n (j - k), fun _ => by omega⟩

/-- The last branch of SqrtCore rounds a description of the exact root: an odd exponent is made even, which doubles the
significand (R146). -/
theorem exists_describesAt_sqrtFinite (P : Config.Params) (c : Context) (f : Fmt) {u : Unpacked} (hm : 1 ≤ u.m) :
    ∃ sig exp sticky, DescribesAt (arithPrec c f) sig exp sticky √(u.m * 2 ^ u.q) ∧
      sqrtFinite P c f u = roundPack P c f (arithPrec c f) false sig exp sticky := by
  obtain heven | hodd := Int.emod_two_eq_zero_or_one u.q
  case inl =>
    have hvalue : (u.m : ℝ) * 2 ^ (2 * (u.q / 2)) = u.m * 2 ^ u.q := by rw [Int.mul_ediv_cancel' (by omega)]
    refine ⟨_, _, _, hvalue ▸ describesAt_root c f hm (u.q / 2) rfl rfl, ?_⟩
    simp [sqrtFinite, heven]
  case inr =>
    have hvalue : ((u.m * 2 : Nat) : ℝ) * 2 ^ (2 * ((u.q - 1) / 2)) = u.m * 2 ^ u.q := by
      rw [Int.mul_ediv_cancel' (by omega), zpow_sub_one₀ two_ne_zero]
      push_cast
      ring
    refine ⟨_, _, _, hvalue ▸ describesAt_root c f (by omega) ((u.q - 1) / 2) rfl rfl, ?_⟩
    simp [sqrtFinite, hodd]

theorem val_of_positive {f : Fmt} {a : Word80} (hs : signOf f a = false) :
    val f a = (unpack f a).m * 2 ^ (unpack f a).q := by
  simp [val, unpack_sign, hs, signFactor]

/-- Settles O49: the last branch of SqrtCore rounds a description of the exact root, and RoundPack depends on the
magnitude described only. -/
theorem squareRootRoundsTheExactRoot : Obligations.SquareRootRoundsTheExactRoot := by
  intro f s c sig exp sticky hr ha hz hs hpos hdesc hlong
  obtain ⟨sig', exp', sticky', ⟨hpos', hdesc', hlong'⟩, hround⟩ :=
    exists_describesAt_sqrtFinite Config.fpe1 c f (unpack_m_pos ha hz)
  refine (Computes.fsqrt f).completes_of_eq hr ((sqrtCore_of_positive ha hz hs).trans ?_)
  rw [val_of_positive hs] at hdesc
  push_cast at hdesc
  rw [hround, roundPackDependsOnTheValueOnly _ c f _ _ _ _ _ _ _ _ _ (one_le_arithPrec c f) hpos' hpos hdesc' hdesc
    hlong' hlong]

/-! ### The range of the root -/

/-- The exponents of a format are few enough that halving them leaves none at either end. -/
theorem unpack_q_bounds (f : Fmt) (a : Word80) :
    2 * emin f ≤ (unpack f a).q ∧ (unpack f a).q + precBits f ≤ 2 * emax f := by
  have hexp : expOf f a < 2 ^ expBits f := BitVec.isLt _
  rw [unpack_q]
  cases f <;> simp only [quantum, emin, emax, bias, fracBits, precBits, expBits] at hexp ⊢ <;> omega

/-- The root of a positive finite value lies well inside the normal range (R147). -/
theorem sqrt_unpack_bounds {f : Fmt} {a : Word80} (hm : 1 ≤ (unpack f a).m) :
    (2 : ℝ) ^ emin f ≤ √((unpack f a).m * 2 ^ (unpack f a).q) ∧
      √((unpack f a).m * 2 ^ (unpack f a).q) < 2 ^ emax f := by
  obtain ⟨hqlow, hqhigh⟩ := unpack_q_bounds f a
  have hlow : (2 : ℝ) ^ (2 * emin f) ≤ (unpack f a).m * 2 ^ (unpack f a).q := calc
    (2 : ℝ) ^ (2 * emin f) ≤ 2 ^ (unpack f a).q := zpow_le_zpow_right₀ one_le_two hqlow
    _ ≤ (unpack f a).m * 2 ^ (unpack f a).q := le_mul_of_one_le_left (by positivity) (by exact_mod_cast hm)
  have hhigh : ((unpack f a).m : ℝ) * 2 ^ (unpack f a).q < 2 ^ (2 * emax f) := calc
    ((unpack f a).m : ℝ) * 2 ^ (unpack f a).q < (2 ^ precBits f : Nat) * 2 ^ (unpack f a).q := by
      gcongr
      exact_mod_cast unpack_m_lt f a
    _ = 2 ^ ((unpack f a).q + precBits f) := natCast_two_pow_mul_zpow _ _
    _ ≤ 2 ^ (2 * emax f) := zpow_le_zpow_right₀ one_le_two hqhigh
  rw [two_zpow_two_mul] at hlow hhigh
  exact ⟨Real.le_sqrt_of_sq_le hlow, (Real.sqrt_lt' (by positivity)).mpr hhigh⟩

/-- RoundPack of a magnitude below `2^emax` that is not tiny neither overflows nor underflows (41_rounder.md R95 to
R98). -/
theorem roundPack_flag_of_normal {P : Config.Params} {c : Context} {f : Fmt} {p sig : Nat} {s sticky : Bool} {exp : Int}
    {x : ℝ} {fl : Flag} (hd : DescribesAt p sig exp sticky x) (hlow : 2 ^ emin f ≤ x) (hhigh : x < 2 ^ emax f)
    (hfl : HasFlag (roundPack P c f p s sig exp sticky).flags fl) : fl = .inexact ∨ fl = .plu := by
  obtain ⟨e, m1, m, h⟩ := hd.exists_packRoundings c.rm f s
  have hmin : emin f < e + 1 := (zpow_lt_zpow_iff_right₀ one_lt_two).mp (hlow.trans_lt h.lt)
  have hmax : e < emax f := (zpow_lt_zpow_iff_right₀ one_lt_two).mp (h.le.trans_lt hhigh)
  have hcarry : e ≤ carriedExp p e m1 ∧ carriedExp p e m1 ≤ e + 1 := by
    unfold carriedExp
    split <;> omega
  have hnormal : ¬ carriedExp p e m1 < emin f := by omega
  rw [roundPack_eq_packRounded hd h, packRounded_of_deliver (by omega) (fun ⟨htiny, _⟩ => hnormal htiny)] at hfl
  simp only [deliver, hasFlag_or, hasFlag_raiseIf, decide_eq_false hnormal, Bool.false_and, Bool.false_eq_true,
    false_and, false_or] at hfl
  exact hfl.imp (fun ⟨_, hinexact⟩ => hinexact.symm) (fun ⟨_, hplu⟩ => hplu.symm)

/-- The flags FSQRT can add (R147). -/
def sqrtFlags : List Flag := [.invalid, .denormal, .inexact, .plu]

/-- No branch of SqrtCore raises another flag. -/
theorem mem_sqrtFlags_of_hasFlag {P : Config.Params} {c : Context} {f : Fmt} {a : Word80} {fl : Flag}
    (h : HasFlag (sqrtCore P c f a).flags fl) : fl ∈ sqrtFlags := by
  have hinvalid (hfl : HasFlag (raise [.invalid]) fl) : fl ∈ sqrtFlags := by
    rw [List.mem_singleton.mp (hasFlag_raise.mp hfl)]
    decide
  unfold sqrtCore at h
  split_ifs at h with hu hn hz hs hi
  · exact hinvalid h
  · obtain ⟨-, rfl⟩ := hasFlag_raiseIf.mp h
    decide
  · exact absurd h (not_hasFlag_zero fl)
  · exact hinvalid h
  · exact absurd h (not_hasFlag_zero fl)
  · rw [Bool.not_eq_true] at hn hz hi
    have hm := unpack_m_pos (isFinite_of_not_isNaN_of_not_isInf hn hi) hz
    obtain ⟨sig, exp, sticky, hd, hround⟩ := exists_describesAt_sqrtFinite P c f hm
    obtain ⟨hlow, hhigh⟩ := sqrt_unpack_bounds hm
    rw [hround] at h
    obtain hdenorm | hrounded := hasFlag_or.mp h
    · obtain ⟨-, rfl⟩ := hasFlag_raiseIf.mp hdenorm
      decide
    · obtain rfl | rfl := roundPack_flag_of_normal hd hlow hhigh hrounded <;> decide

/-- Settles O51: the three flags are not among those of the family. -/
theorem squareRootStaysInRange : Obligations.SquareRootStaysInRange := by
  intro f s hready
  obtain ⟨c, hr⟩ := hready.exists_context
  have hnever {fl : Flag} (hout : fl ∉ sqrtFlags) : ¬ HasFlag (fsqrtOp f c s.opa).flags fl :=
    mt mem_sqrtFlags_of_hasFlag hout
  have h : Completes (fsqrtI f) s (fsqrtOp f c s.opa) := (Computes.fsqrt f).completes hr
  exact ⟨_, h, hnever (by decide), hnever (by decide), hnever (by decide)⟩

end Sys2Proof.Machine
end

section
/-! PROOFS. FRINT (46_round_to_int.md R155, R156): an operand that is an integer is returned, and any other has its
magnitude rounded at the quantum 1. -/

namespace Sys2Proof.Machine

/-! ### The branches of RintCore -/

section
variable {P : Config.Params} {c : Context} {f : Fmt} {a : Word80}

theorem rintCore_of_isInf (h : isInf f a = true) : rintCore P c f a = { value := a, flags := 0#16 } := by
  have hn := isNaN_of_isInf h
  simp [rintCore, hn, unsupported_of_not_isNaN, h]

theorem rintCore_of_isZero (ha : isFinite f a = true) (hz : isZero f a = true) :
    rintCore P c f a = { value := a, flags := 0#16 } := by
  have hn := isNaN_of_isFinite ha
  simp [rintCore, hn, unsupported_of_not_isNaN, hz]

theorem rintCore_of_nonzero (ha : isFinite f a = true) (hz : isZero f a = false) :
    rintCore P c f a = (rintFinite c f a (unpack f a)).also (denormal1 f a) := by
  have hn := isNaN_of_isFinite ha
  simp [rintCore, hn, unsupported_of_not_isNaN, hz, isInf_of_isFinite ha]

theorem rintFinite_of_nonneg {u : Unpacked} (h : 0 ≤ u.q) : rintFinite c f a u = { value := a, flags := 0#16 } :=
  if_pos h

/-- With an exponent below 0 RintCore delivers the rounding of the magnitude. -/
theorem rintFinite_of_neg {u : Unpacked} {x : ℝ} {n : Nat} (h : u.q < 0) (hx : x = u.m * 2 ^ u.q)
    (hround : RoundsTo c.rm u.sign x 0 n) :
    rintFinite c f a u =
      { value := if n = 0 then packZero f u.sign else packFinite f u.sign n 0,
        flags := raiseIf (roundedTo x 0 n).inexact .inexact |||
          raiseIf ((roundedTo x 0 n).inexact && (roundedTo x 0 n).up && f == .X) .plu } := by
  have hrounded : roundAt c.rm u.sign u.m u.q false 0 = roundedTo x 0 n :=
    roundAt_eq_roundedTo (describes_exact_iff.mpr hx) (by simp) hround
  rw [rintFinite, if_neg (by omega), hrounded]
  rfl

end

/-! ### Integers of a format -/

section
variable {P : Config.Params} {c : Context} {f : Fmt} {a : Word80} {n : Nat}

theorem val_eq_signFactor_mul_abs (f : Fmt) (a : Word80) : val f a = signFactor (signOf f a) * |val f a| := by
  rw [abs_val, val, unpack_sign, mul_assoc]

theorem abs_val_cast (f : Fmt) (a : Word80) : ((|val f a| : ℚ) : ℝ) = (unpack f a).m * 2 ^ (unpack f a).q := by
  rw [abs_val]
  push_cast
  rfl

theorem denormal1_of_isZero (h : isZero f a = true) : denormal1 f a = 0#16 := by
  have hclass : classify f a = .zero := by simpa [isZero] using h
  simp [denormal1, isDenorm, hclass, raiseIf]

theorem abs_val_of_isZero (ha : isFinite f a = true) (hz : isZero f a = true) : |val f a| = 0 := by
  rw [abs_val, (unpack_m_eq_zero_iff ha).mpr hz, Nat.cast_zero, zero_mul]

/-- A nonnegative exponent makes an integer. -/
theorem abs_val_of_nonneg (h : 0 ≤ (unpack f a).q) :
    |val f a| = ((unpack f a).m * 2 ^ (unpack f a).q.toNat : Nat) := by
  rw [abs_val, ← Int.toNat_of_nonneg h, zpow_natCast, Int.toNat_natCast]
  push_cast
  rfl

/-- Subnormal numbers and pseudo-denormals lie below 1. -/
theorem abs_val_lt_one_of_denormal (h : classify f a = .denormal) : |val f a| < 1 := by
  obtain ⟨hexp, -⟩ := (classify_eq_denormal_iff f a).mp h
  have hrange : quantum f 0 + precBits f ≤ 0 := by cases f <;> decide
  rw [abs_val, unpack_q, hexp]
  calc ((unpack f a).m : ℚ) * 2 ^ quantum f 0 < 2 ^ (quantum f 0 + precBits f) :=
        (scaled_lt_iff ..).mpr (unpack_m_lt f a)
    _ ≤ 1 := zpow_le_one_of_nonpos₀ one_le_two hrange

theorem one_le_of_integer (ha : isFinite f a = true) (hz : isZero f a = false) (hn : (n : ℚ) = |val f a|) :
    1 ≤ n := by
  have hpos := abs_val_pos ha hz
  rw [← hn] at hpos
  exact_mod_cast hpos

/-- The nonzero integers of a format are normal: "a subnormal is never an integer" (R155). -/
theorem normalized_of_integer (ha : isFinite f a = true) (hz : isZero f a = false) (hn : (n : ℚ) = |val f a|) :
    classify f a = .normalized := by
  cases hclass : classify f a with
  | normalized => rfl
  | denormal =>
    have hlt := abs_val_lt_one_of_denormal hclass
    rw [← hn] at hlt
    exact absurd (one_le_of_integer ha hz hn) (by exact_mod_cast hlt.not_ge)
  | zero => simp [isZero, hclass] at hz
  | nan | negInfinity | posInfinity => simp [isFinite, hclass] at ha

/-- Packing an integer of the format as such gives the operand itself. -/
theorem packFinite_of_integer (hlt : a.toNat < 2 ^ fmtBits f) (ha : isFinite f a = true) (hz : isZero f a = false)
    (hn : (n : ℚ) = |val f a|) : packFinite f (signOf f a) n 0 = a := by
  have hfields := finiteFields_of_normalized (normalized_of_integer ha hz hn)
  have hv : (n : ℚ) * 2 ^ (0 : Int) = (unpack f a).m * 2 ^ quantum f (expOf f a) := by
    rw [← unpack_q, ← abs_val, ← hn, zpow_zero, mul_one]
  rw [hfields.packFinite_eq_mkPacked _ (one_le_of_integer ha hz hn) hv, mkPacked_unpack hlt]

/-- An integer is returned unchanged, and the rounding adds no flag (R155). -/
theorem rintCore_of_integer (hlt : a.toNat < 2 ^ fmtBits f) (ha : isFinite f a = true) (hn : (n : ℚ) = |val f a|) :
    rintCore P c f a = { value := a, flags := denormal1 f a } := by
  cases hz : isZero f a with
  | true => rw [rintCore_of_isZero ha hz, denormal1_of_isZero hz]
  | false =>
    have hne : n ≠ 0 := Nat.one_le_iff_ne_zero.mp (one_le_of_integer ha hz hn)
    have hfinite : rintFinite c f a (unpack f a) = { value := a, flags := 0#16 } := by
      obtain hq | hq := le_or_gt 0 (unpack f a).q
      · exact rintFinite_of_nonneg hq
      · have hx : ((|val f a| : ℚ) : ℝ) = n * 2 ^ (0 : Int) := by simp [← hn]
        rw [rintFinite_of_neg hq (abs_val_cast f a) (roundsTo_self hx), roundedTo_of_eq hx, if_neg hne, unpack_sign,
          packFinite_of_integer hlt ha hz hn]
        simp [raiseIf]
    rw [rintCore_of_nonzero ha hz, hfinite, Result.also, BitVec.or_zero]

/-! ### Rounded magnitudes -/

/-- An integer magnitude rounds to itself only. -/
theorem abs_val_ne_of_roundsTo {rm : Rounding} {s : Bool} (hround : RoundsTo rm s ((|val f a| : ℚ) : ℝ) 0 n)
    (hne : (n : ℚ) ≠ |val f a|) (k : Nat) : |val f a| ≠ k := by
  intro hk
  have hself : RoundsTo rm s ((|val f a| : ℚ) : ℝ) 0 k := roundsTo_self (by simp [hk])
  exact hne (by rw [hround.unique hself, hk])

theorem unpack_q_neg_of_roundsTo {rm : Rounding} {s : Bool} (hround : RoundsTo rm s ((|val f a| : ℚ) : ℝ) 0 n)
    (hne : (n : ℚ) ≠ |val f a|) : (unpack f a).q < 0 :=
  not_le.mp fun hq => abs_val_ne_of_roundsTo hround hne _ (abs_val_of_nonneg hq)

/-- A magnitude that is not an integer is delivered rounded, with `inexact`, and with `plu` for extended80 where it
grew (R155). -/
theorem rintCore_of_not_integer (ha : isFinite f a = true)
    (hround : RoundsTo c.rm (signOf f a) ((|val f a| : ℚ) : ℝ) 0 n) (hne : (n : ℚ) ≠ |val f a|) :
    rintCore P c f a =
      { value := if n = 0 then packZero f (signOf f a) else packFinite f (signOf f a) n 0,
        flags := denormal1 f a ||| 0x0020#16 ||| if f = .X ∧ |val f a| < n then 0x0200#16 else 0#16 } := by
  have hz : isZero f a = false := Bool.eq_false_iff.mpr fun hz =>
    abs_val_ne_of_roundsTo hround hne 0 (by simpa using abs_val_of_isZero ha hz)
  have hq := unpack_q_neg_of_roundsTo hround hne
  have hinexact : (roundedTo ((|val f a| : ℚ) : ℝ) 0 n).inexact = true := by
    rw [roundedTo, decide_eq_true_iff, zpow_zero, mul_one]
    exact_mod_cast hne
  have hup : (roundedTo ((|val f a| : ℚ) : ℝ) 0 n).up = decide (|val f a| < n) := by
    rw [roundedTo, decide_eq_decide, zpow_zero, mul_one]
    exact_mod_cast Iff.rfl
  rw [← unpack_sign] at hround
  rw [rintCore_of_nonzero ha hz, rintFinite_of_neg hq (abs_val_cast f a) hround, hinexact, hup, unpack_sign,
    Result.also, BitVec.or_assoc]
  simp [raiseIf, Flag.bit, and_comm]

/-- With an exponent below 0 the rounded magnitude still fits the significand, so that PackFinite is exact (R156). -/
theorem isMember_of_roundsTo {rm : Rounding} {s : Bool} (hq : (unpack f a).q < 0)
    (hround : RoundsTo rm s ((|val f a| : ℚ) : ℝ) 0 n) (hn : 1 ≤ n) :
    IsMember f (precBits f) (n * 2 ^ (0 : Int)) := by
  have hbelow : |val f a| < 2 ^ (0 + precBits f : Int) := calc
    |val f a| = (unpack f a).m * 2 ^ (unpack f a).q := abs_val f a
    _ < 2 ^ ((unpack f a).q + precBits f) := (scaled_lt_iff ..).mpr (unpack_m_lt f a)
    _ ≤ 2 ^ (0 + precBits f : Int) := zpow_le_zpow_right₀ one_le_two (by omega)
  have hwidth : n ≤ 2 ^ precBits f := hround.le_two_pow (by exact_mod_cast hbelow)
  have hrange : emin f ≤ 0 + (precBits f - 1) ∧ (0 + (precBits f + 1 : Nat) : Int) ≤ emax f + 1 := by
    cases f <;> decide
  obtain ⟨hmin, hmax⟩ := hrange
  have hcarry : (n : ℚ) * 2 ^ (0 : Int) < 2 ^ (0 + (precBits f + 1 : Nat) : Int) :=
    (scaled_lt_iff ..).mpr (hwidth.trans_lt (Nat.pow_lt_pow_right one_lt_two (Nat.lt_succ_self _)))
  exact isMember_of_le hn hwidth hmin (hcarry.trans_le (zpow_le_zpow_right₀ one_le_two hmax))

end

/-- Settles O52: an integer is its own rounding and is returned; any other operand has an exponent below 0, and the
rounding of its magnitude is packed. -/
theorem roundToIntegerDeliversTheInteger : Obligations.RoundToIntegerDeliversTheInteger := by
  intro f s c hr
  refine ⟨fun hinf => ?infinity, fun n ha hround => ?finite⟩
  case infinity => exact (Computes.frint f).completes_of_eq hr (rintCore_of_isInf hinf)
  case finite =>
    by_cases hn : (n : ℚ) = |val f (opA f s)|
    case pos =>
      refine ⟨opA f s, (Computes.frint f).completes_of_eq hr ?_, ha, rfl, ?_, fun _ => rfl⟩
      · have hkept : ¬ (f = .X ∧ |val f (opA f s)| < n) := fun ⟨_, hgrew⟩ => hgrew.ne' hn
        have hflags : denormal1 f (opA f s) ||| 0#16 ||| 0#16 = denormal1 f (opA f s) := by simp
        refine (rintCore_of_integer (fltOperand_lt ..) ha hn).trans ?_
        rw [if_pos hn, if_neg hkept]
        exact congrArg (Result.mk _) hflags.symm
      · rw [hn]
        exact val_eq_signFactor_mul_abs ..
    case neg =>
      have hq := unpack_q_neg_of_roundsTo hround hn
      obtain ⟨hfinite, hsign, hval⟩ := delivered_packedAs (signOf f (opA f s)) (isMember_of_roundsTo hq hround)
      rw [zpow_zero, mul_one] at hval
      refine ⟨_, (Computes.frint f).completes_of_eq hr ?_, hfinite, hsign, hval, fun hint => absurd hint hn⟩
      refine (rintCore_of_not_integer ha hround hn).trans ?_
      rw [if_neg hn]
      rfl

end Sys2Proof.Machine
end

section
/-! PROOFS. The comparison commands (47_compare.md R165 to R168, R200): the integers that CmpCore compares are in the
order of the extended real values, and the five commands of a format and variant read one relation. -/

namespace Sys2Proof.Machine

/-! ### The order of two values that are not NaNs -/

/-- The rank CmpCore gives an operand, and its extended real value (R167). -/
theorem infRank_cases {f : Fmt} {a : Word80} (h : isNaN f a = false) :
    (infRank f a = -1 ∧ extVal f a = .negInf) ∨ (infRank f a = 0 ∧ extVal f a = .fin (val f a)) ∨
    (infRank f a = 1 ∧ extVal f a = .posInf) := by
  unfold infRank extVal
  cases hclass : classify f a with
  | nan => simp [isNaN, hclass] at h
  | zero | negInfinity | posInfinity | denormal | normalized => simp

/-- Scaled to a quantum not above its own, a significand is the integer multiple that makes up the value. -/
theorem scaledValue_unpack (f : Fmt) (a : Word80) {q : Int} (h : q ≤ (unpack f a).q) :
    (scaledValue (unpack f a) q : ℚ) * 2 ^ q = val f a := by
  rw [scaledValue, signedInt_aligned h, val]

theorem orderInt_of_scaled {x y : Int} {v w : ℚ} {q : Int} (hv : (x : ℚ) * 2 ^ q = v) (hw : (y : ℚ) * 2 ^ q = w) :
    orderInt x y = ExtVal.relation (.fin v) (.fin w) := by
  have hscale : (0 : ℚ) < 2 ^ q := zpow_pos two_pos q
  have hlt : x < y ↔ v < w := by rw [← hv, ← hw, mul_lt_mul_iff_left₀ hscale, Int.cast_lt]
  have heq : x = y ↔ v = w := by rw [← hv, ← hw, mul_left_inj' hscale.ne', Int.cast_inj]
  simp only [orderInt, ExtVal.relation, hlt, heq]

/-- Infinities are compared by rank, finite values at their common quantum: both give the order of R167. -/
theorem order_eq_relation {f : Fmt} {a b : Word80} (ha : isNaN f a = false) (hb : isNaN f b = false) :
    order f a b = ExtVal.relation (extVal f a) (extVal f b) := by
  obtain ⟨hra, hva⟩ | ⟨hra, hva⟩ | ⟨hra, hva⟩ := infRank_cases ha <;>
    obtain ⟨hrb, hvb⟩ | ⟨hrb, hvb⟩ | ⟨hrb, hvb⟩ := infRank_cases hb <;> rw [hva, hvb, order, hra, hrb]
  case inr.inl.inr.inl =>
    exact orderInt_of_scaled (scaledValue_unpack f a (min_le_left ..)) (scaledValue_unpack f b (min_le_right ..))
  all_goals rfl

/-! ### The branches of CmpCore -/

section
variable {f : Fmt} {a b : Word80} {sg : Bool}

theorem cmpCore_of_nan (hu : ¬ (unsupported f a || unsupported f b) = true) (h : (isNaN f a || isNaN f b) = true) :
    cmpCore f a b sg = { rel := .unordered, flags := raiseIf (sg || isSNaN f a || isSNaN f b) .invalid } := by
  rw [cmpCore, if_neg hu, if_pos h]

theorem cmpCore_of_ordered (ha : isNaN f a = false) (hb : isNaN f b = false) :
    cmpCore f a b sg =
      { rel := ExtVal.relation (extVal f a) (extVal f b), flags := denormal2 f a b } := by
  simp [cmpCore, ha, hb, unsupported_of_not_isNaN, order_eq_relation]

end

/-! ### The five commands -/

theorem predicateOp_value (holds : Relation → Bool) {p : Relation → Prop} [DecidablePred p]
    (h : ∀ rel, holds rel = true ↔ p rel) (sg : Bool) (f : Fmt) (a b : Word80) :
    predicateOp holds sg f a b =
      { value := if p (cmpCore f (fltOperand f a) (fltOperand f b) sg).rel then 1 else 0,
        flags := (cmpCore f (fltOperand f a) (fltOperand f b) sg).flags } := by
  rw [predicateOp, boolResult]
  exact congrArg (Result.mk · _) (if_congr (h _) rfl rfl)

theorem Relation.isEq_iff (rel : Relation) : rel.isEq = true ↔ rel = .equal := by cases rel <;> decide

theorem Relation.isLt_iff (rel : Relation) : rel.isLt = true ↔ rel = .less := by cases rel <;> decide

theorem Relation.isLe_iff (rel : Relation) : rel.isLe = true ↔ rel = .less ∨ rel = .equal := by
  cases rel <;> decide

theorem Relation.isUn_iff (rel : Relation) : rel.isUn = true ↔ rel = .unordered := by cases rel <;> decide

/-- What CmpCore makes of the operands of a comparison command of format `f`. -/
def compared (sg : Bool) (f : Fmt) (s : State) : Compared := cmpCore f (opA f s) (opB f s) sg

section
variable {sg : Bool} {f : Fmt} {s : State} {c : Context}

theorem completes_fcmp (hr : ReadyUnder (fcmpI sg f) s c) :
    Completes (fcmpI sg f) s { value := (compared sg f s).rel.code, flags := (compared sg f s).flags } :=
  (Computes.fcmp sg f).completes hr

/-- A predicate command tells whether its predicate holds of the relation. -/
theorem completes_predicate {i : Instr} {holds : Relation → Bool} {p : Relation → Prop} [DecidablePred p]
    (hi : Computes i (.flt f) .code true (fun _ => predicateOp holds sg f)) (hr : ReadyUnder (fcmpI sg f) s c)
    (h : ∀ rel, holds rel = true ↔ p rel) :
    Completes i s { value := if p (compared sg f s).rel then 1 else 0, flags := (compared sg f s).flags } :=
  hi.completes_of_eq (hr.of_comparison (readsOpb_fcmpI sg f)) (predicateOp_value holds h sg f s.opa s.opb)

theorem completes_feq (hr : ReadyUnder (fcmpI sg f) s c) : Completes (feqI sg f) s
    { value := if (compared sg f s).rel = .equal then 1 else 0, flags := (compared sg f s).flags } :=
  completes_predicate (.feq sg f) hr Relation.isEq_iff

theorem completes_flt (hr : ReadyUnder (fcmpI sg f) s c) : Completes (fltI sg f) s
    { value := if (compared sg f s).rel = .less then 1 else 0, flags := (compared sg f s).flags } :=
  completes_predicate (.flt sg f) hr Relation.isLt_iff

theorem completes_fle (hr : ReadyUnder (fcmpI sg f) s c) : Completes (fleI sg f) s
    { value := if (compared sg f s).rel = .less ∨ (compared sg f s).rel = .equal then 1 else 0,
      flags := (compared sg f s).flags } :=
  completes_predicate (.fle sg f) hr Relation.isLe_iff

theorem completes_fun (hr : ReadyUnder (fcmpI sg f) s c) : Completes (funI sg f) s
    { value := if (compared sg f s).rel = .unordered then 1 else 0, flags := (compared sg f s).flags } :=
  completes_predicate (.funord sg f) hr Relation.isUn_iff

end

theorem Relation.code_eq (rel : Relation) :
    rel.code = match rel with | .less => 0 | .equal => 1 | .greater => 2 | .unordered => 3 := by
  cases rel <;> rfl

/-- Settles O53: the relation and the flags are those of CmpCore, branch by branch. -/
theorem comparisonsFollowTheRelation : Obligations.ComparisonsFollowTheRelation := by
  intro sg f s hready
  obtain ⟨c, hr⟩ := hready.exists_context
  refine ⟨(compared sg f s).rel, (compared sg f s).flags, ?ordering, completes_feq hr, completes_flt hr,
    completes_fle hr, completes_fun hr, ?relation⟩
  case ordering =>
    have h := completes_fcmp hr
    rw [Relation.code_eq] at h
    exact h
  case relation =>
    unfold compared
    split
    case isTrue hu =>
      rw [cmpCore_of_unsupported ((Bool.or_eq_true ..).mp hu)]
      exact ⟨rfl, rfl⟩
    case isFalse hu =>
      split
      case isTrue hn =>
        rw [cmpCore_of_nan hu hn]
        exact ⟨rfl, rfl⟩
      case isFalse hn =>
        obtain ⟨ha, hb⟩ := Bool.or_eq_false_iff.mp (Bool.eq_false_iff.mpr hn)
        rw [cmpCore_of_ordered ha hb]
        exact ⟨rfl, rfl⟩

/-! ### The commands among each other -/

/-- The relation of the operands in the other order. -/
def Relation.converse : Relation → Relation
  | .less => .greater
  | .equal => .equal
  | .greater => .less
  | .unordered => .unordered

theorem ExtVal.relation_comm (x y : ExtVal) : y.relation x = (x.relation y).converse := by
  cases x with
  | negInf | posInf => cases y <;> rfl
  | fin v =>
    cases y with
    | negInf | posInf => rfl
    | fin w =>
      obtain hlt | rfl | hgt := lt_trichotomy v w
      · simp [ExtVal.relation, Relation.converse, hlt, hlt.not_gt, hlt.ne']
      · simp [ExtVal.relation, Relation.converse]
      · simp [ExtVal.relation, Relation.converse, hgt, hgt.not_gt, hgt.ne']

theorem ExtVal.relation_ne_unordered (x y : ExtVal) : x.relation y ≠ .unordered := by
  cases x with
  | negInf | posInf => cases y <;> exact Relation.noConfusion
  | fin v =>
    cases y with
    | negInf | posInf => exact Relation.noConfusion
    | fin w =>
      rw [ExtVal.relation]
      split_ifs <;> exact Relation.noConfusion

section
variable {f : Fmt} {a b : Word80} {sg : Bool}

/-- An unsupported operand is a NaN too, so that a NaN alone makes the operands unordered. -/
theorem cmpCore_rel_of_nan (h : isNaN f a = true ∨ isNaN f b = true) : (cmpCore f a b sg).rel = .unordered := by
  by_cases hu : (unsupported f a || unsupported f b) = true
  · rw [cmpCore_of_unsupported ((Bool.or_eq_true ..).mp hu)]
  · rw [cmpCore_of_nan hu ((Bool.or_eq_true ..).mpr h)]

theorem cmpCore_rel_eq_unordered_iff :
    (cmpCore f a b sg).rel = .unordered ↔ isNaN f a = true ∨ isNaN f b = true := by
  refine ⟨fun hrel => ?_, cmpCore_rel_of_nan⟩
  by_contra! hn
  obtain ⟨ha, hb⟩ := hn
  rw [cmpCore_of_ordered (Bool.eq_false_iff.mpr ha) (Bool.eq_false_iff.mpr hb)] at hrel
  exact ExtVal.relation_ne_unordered _ _ hrel

theorem cmpCore_rel_comm (f : Fmt) (a b : Word80) (sg : Bool) :
    (cmpCore f b a sg).rel = (cmpCore f a b sg).rel.converse := by
  by_cases hn : isNaN f a = true ∨ isNaN f b = true
  · rw [cmpCore_rel_of_nan hn, cmpCore_rel_of_nan hn.symm]
    rfl
  · obtain ⟨ha, hb⟩ := not_or.mp hn
    rw [Bool.not_eq_true] at ha hb
    rw [cmpCore_of_ordered ha hb, cmpCore_of_ordered hb ha, ExtVal.relation_comm]

end

theorem resultOf_of_completes {i : Instr} {s : State} {v : Word80} {fl : Word16}
    (h : Completes i s { value := v, flags := fl }) : resultOf i s = some v := by
  rw [resultOf, h]

theorem resultOf_fclass_eq_one_iff {f : Fmt} {s : State} (h : Ready (fclassI f) s) :
    resultOf (fclassI f) s = some 1 ↔ isNaN f (opA f s) = true := by
  rw [resultOf_of_completes (completes_fclass h), Option.some_inj, opA, isNaN_fltOperand, isNaN, beq_iff_eq]
  cases classify f s.opa <;> decide

/-- Settles O54: each result is read off the one relation, and the exchanged operands have its converse. -/
theorem comparisonsAreConsistent : Obligations.ComparisonsAreConsistent := by
  intro sg f s hready t
  obtain ⟨c, hr⟩ := hready.exists_context
  have hrt : ReadyUnder (fcmpI sg f) t c := hr
  have hclass : Ready (fclassI f) s := (hr.of_comparison (readsOpb_fcmpI sg f)).ready
  have hclasst : Ready (fclassI f) t := hclass
  have hconverse : (compared sg f t).rel = (compared sg f s).rel.converse := cmpCore_rel_comm ..
  have hun : (compared sg f s).rel = .unordered ↔ isNaN f (opA f s) = true ∨ isNaN f (opA f t) = true :=
    cmpCore_rel_eq_unordered_iff
  rw [resultOf_fclass_eq_one_iff hclass, resultOf_fclass_eq_one_iff hclasst, ← hun,
    resultOf_of_completes (completes_feq hr), resultOf_of_completes (completes_fcmp hr),
    resultOf_of_completes (completes_fun hr), resultOf_of_completes (completes_fle hr),
    resultOf_of_completes (completes_flt hr), resultOf_of_completes (completes_flt hrt), hconverse]
  generalize (compared sg f s).rel = rel
  refine ⟨?equal, ?unordered, ?lessOrEqual, _, _, _, _, rfl, rfl, rfl, rfl, ?oneOfFour⟩
  case equal | unordered | lessOrEqual | oneOfFour => cases rel <;> decide

end Sys2Proof.Machine
end

section
/-! PROOFS. FCVT between float formats (48_converter.md R205 to R207, R236): the branches of CvtFF, the exact value
behind the last of them, and the way up to a wider format and back. -/

namespace Sys2Proof.Machine

/-! ### The branches of CvtFF -/

section
variable {P : Config.Params} {c : Context} {src dst : Fmt} {a : Word80}

theorem cvtFF_of_isNaN (hu : unsupported src a = false) (hn : isNaN src a = true) :
    cvtFF P c src dst a = cvtNaN src dst a := by
  simp [cvtFF, hu, hn]

theorem cvtFF_of_isInf (h : isInf src a = true) :
    cvtFF P c src dst a = { value := packInf dst (signOf src a), flags := 0#16 } := by
  have hn := isNaN_of_isInf h
  simp [cvtFF, hn, unsupported_of_not_isNaN, h]

theorem cvtFF_of_isZero (ha : isFinite src a = true) (hz : isZero src a = true) :
    cvtFF P c src dst a = { value := packZero dst (signOf src a), flags := 0#16 } := by
  have hn := isNaN_of_isFinite ha
  simp [cvtFF, hn, unsupported_of_not_isNaN, isInf_of_isFinite ha, hz]

theorem cvtFF_of_nonzero (ha : isFinite src a = true) (hz : isZero src a = false) :
    cvtFF P c src dst a =
      (roundPack P c dst (precBits dst) (signOf src a) (unpack src a).m (unpack src a).q false).also
        (cvtDenormal src a) := by
  have hn := isNaN_of_isFinite ha
  simp [cvtFF, hn, unsupported_of_not_isNaN, isInf_of_isFinite ha, hz, unpack_sign]

end

theorem isFinite_of_isZero {f : Fmt} {a : Word80} (h : isZero f a = true) : isFinite f a = true := by
  have hclass : classify f a = .zero := by simpa [isZero] using h
  simp [isFinite, hclass]

theorem one_le_precBits (f : Fmt) : 1 ≤ precBits f := by cases f <;> decide

theorem cvtDenormal_eq (src : Fmt) (a : Word80) :
    cvtDenormal src a = if src ≠ .X ∧ isDenorm src a = true then 0x0002#16 else 0#16 := by
  cases src with
  | X => rfl
  | S | D => simp [cvtDenormal, denormal1, raiseIf, Flag.bit]

/-- FCVT completes with CvtFF of its operand. -/
theorem completes_fcvtFF {src dst : Fmt} {i : Instr} {s : State} {c : Context} {r : Result}
    (hi : fcvtFFI src dst = some i) (hr : ReadyUnder i s c) (h : cvtFF Config.fpe1 c src dst (opA src s) = r) :
    Completes i s r :=
  (Computes.fcvtFF hi).completes_of_eq hr h

/-- Any description of the magnitude rounds alike. -/
theorem cvtFF_eq_roundPack (P : Config.Params) (c : Context) {src dst : Fmt} {a : Word80} {sig : Nat} {exp : Int}
    (ha : isFinite src a = true) (hz : isZero src a = false) (hdesc : (sig : ℚ) * 2 ^ exp = |val src a|) :
    cvtFF P c src dst a =
      (roundPack P c dst (precBits dst) (signOf src a) sig exp false).also (cvtDenormal src a) := by
  rw [cvtFF_of_nonzero ha hz,
    roundPack_congr_of_exact P c dst _ (one_le_precBits dst) (abs_val_pos ha hz) (abs_val src a).symm hdesc]

/-- Settles O55, by the branches of CvtFF. -/
theorem floatConversionsRoundTheExactValue : Obligations.FloatConversionsRoundTheExactValue := by
  intro src dst i s c hi hr
  refine ⟨fun hinf => ?infinity, fun hz => ?zero, fun sig exp ha hz hdesc => ?finite⟩
  case infinity => exact completes_fcvtFF hi hr (cvtFF_of_isInf hinf)
  case zero => exact completes_fcvtFF hi hr (cvtFF_of_isZero (isFinite_of_isZero hz) hz)
  case finite =>
    refine completes_fcvtFF hi hr ?_
    rw [cvtFF_eq_roundPack _ c ha hz hdesc, cvtDenormal_eq]
    rfl

/-! ### Members of a format -/

theorem FiniteFields.exponent_lt_expMax {f : Fmt} {e n : Nat} (h : FiniteFields f e n) : e < expMax f := by
  cases h with
  | subnormal => cases f <;> decide
  | normal _ hmax _ _ => exact hmax

section
variable {f : Fmt} {a : Word80}

theorem expOf_lt_expMax_of_isFinite (h : isFinite f a = true) : expOf f a < expMax f := by
  have hzero : 0 < expMax f := by cases f <;> decide
  cases hclass : classify f a with
  | zero => rwa [((classify_eq_zero_iff f a).mp hclass).1]
  | denormal => rwa [((classify_eq_denormal_iff f a).mp hclass).1]
  | normalized => exact (finiteFields_of_normalized hclass).exponent_lt_expMax
  | nan | negInfinity | posInfinity => simp [isFinite, hclass] at h

/-- The magnitude of a finite nonzero value is a member of its format (40_codec.md R76). -/
theorem isMember_unpack (ha : isFinite f a = true) (hz : isZero f a = false) :
    IsMember f (precBits f) ((unpack f a).m * 2 ^ (unpack f a).q) := by
  have hexp := expOf_lt_expMax_of_isFinite ha
  have hrange : emin f ≤ (unpack f a).q + (precBits f - 1) ∧ (unpack f a).q + precBits f ≤ emax f + 1 := by
    rw [unpack_q]
    cases f <;> simp only [quantum, emin, emax, bias, fracBits, precBits, expMax, expBits] at hexp ⊢ <;> omega
  obtain ⟨hmin, hmax⟩ := hrange
  have hlt := unpack_m_lt f a
  exact isMember_of_lt (unpack_m_pos ha hz) hlt hmin
    (((scaled_lt_iff ..).mpr hlt).trans_le (zpow_le_zpow_right₀ one_le_two hmax))

/-- Outside extended80, whose pseudo-denormals are normal numbers in value, the subnormals are the finite nonzero values
below `2^emin`. -/
theorem isDenorm_iff_lt (hf : f ≠ .X) (ha : isFinite f a = true) (hz : isZero f a = false) :
    isDenorm f a = true ↔ ((unpack f a).m : ℚ) * 2 ^ (unpack f a).q < 2 ^ emin f := by
  rw [← not_le, unpack_q]
  cases hclass : classify f a with
  | zero => simp [isZero, hclass] at hz
  | denormal =>
    have h := finiteFields_of_denormal hclass (fun hX => absurd hX hf)
    rw [← h.exponent_ne_zero_iff]
    simp [isDenorm, hclass, ((classify_eq_denormal_iff f a).mp hclass).1]
  | normalized =>
    rw [← (finiteFields_of_normalized hclass).exponent_ne_zero_iff]
    simp [isDenorm, hclass, ((classify_eq_normalized_iff f a).mp hclass).1]
  | nan | negInfinity | posInfinity => simp [isFinite, hclass] at ha

end

/-- A normal member is returned itself, in every mode and with flush to zero too (41_rounder.md R109). -/
theorem roundPack_of_normal_member {f : Fmt} {m : Nat} {q : Int} (c : Context) (s : Bool) (hm : 1 ≤ m)
    (hmem : IsMember f (precBits f) (m * 2 ^ q)) (hnormal : (2 : ℚ) ^ emin f ≤ m * 2 ^ q) :
    roundPack Config.fpe1 c f (precBits f) s m q false = { value := packFinite f s m q, flags := 0#16 } := by
  rw [membersAreReturnedUnchanged _ c f _ s m q (.inl rfl) rfl hm hmem, if_neg fun ⟨hlt, _⟩ => hnormal.not_gt hlt]
  rfl

/-! ### Widening -/

/-- A wider format has more precision, and a range that takes in every subnormal of the narrower one as a normal
number. -/
theorem widening_range {src dst : Fmt} (h : fmtBits src < fmtBits dst) :
    src ≠ .X ∧ fracBits src < fracBits dst ∧ emin dst ≤ 2 * emin src ∧ 2 * emax src ≤ emax dst := by
  cases src <;> cases dst <;> revert h <;> decide

section
variable {src dst : Fmt} {a : Word80}

theorem isNormal_of_widening (h : fmtBits src < fmtBits dst) (ha : isFinite src a = true)
    (hz : isZero src a = false) : (2 : ℚ) ^ emin dst ≤ (unpack src a).m * 2 ^ (unpack src a).q := by
  obtain ⟨-, -, hmin, -⟩ := widening_range h
  obtain ⟨hlow, -⟩ := unpack_q_bounds src a
  calc (2 : ℚ) ^ emin dst ≤ 2 ^ (unpack src a).q := zpow_le_zpow_right₀ one_le_two (by omega)
    _ ≤ (unpack src a).m * 2 ^ (unpack src a).q :=
      le_mul_of_one_le_left (by positivity) (by exact_mod_cast unpack_m_pos ha hz)

theorem isMember_of_widening (h : fmtBits src < fmtBits dst) (ha : isFinite src a = true)
    (hz : isZero src a = false) : IsMember dst (precBits dst) ((unpack src a).m * 2 ^ (unpack src a).q) := by
  obtain ⟨-, hfrac, hmin, hmax⟩ := widening_range h
  obtain ⟨hlow, hhigh⟩ := unpack_q_bounds src a
  have hprec := precBits_eq src
  have hprec' := precBits_eq dst
  have hlt := unpack_m_lt src a
  exact isMember_of_lt (unpack_m_pos ha hz) (hlt.trans_le (Nat.pow_le_pow_right two_pos (by omega))) (by omega)
    (((scaled_lt_iff ..).mpr hlt).trans_le (zpow_le_zpow_right₀ one_le_two (by omega)))

/-- On the way up a finite nonzero operand is packed as it is (R205, R207). -/
theorem cvtFF_of_widening (c : Context) (h : fmtBits src < fmtBits dst) (ha : isFinite src a = true)
    (hz : isZero src a = false) :
    cvtFF Config.fpe1 c src dst a =
      { value := packFinite dst (signOf src a) (unpack src a).m (unpack src a).q, flags := denormal1 src a } := by
  have hden : cvtDenormal src a = denormal1 src a := by
    obtain ⟨hne, -⟩ := widening_range h
    cases src with
    | X => exact absurd rfl hne
    | S | D => rfl
  rw [cvtFF_of_nonzero ha hz, hden, roundPack_of_normal_member c _ (unpack_m_pos ha hz)
    (isMember_of_widening h ha hz) (isNormal_of_widening h ha hz), Result.also, BitVec.or_zero]

end

theorem val_of_abs_val {f : Fmt} {a : Word80} {v : ℚ} (h : |val f a| = v) : val f a = signFactor (signOf f a) * v := by
  rw [val_eq_signFactor_mul_abs, h]

/-- Settles O56: a zero stays a zero, and any other finite operand is packed as it is. -/
theorem wideningConversionsAreExact : Obligations.WideningConversionsAreExact := by
  intro src dst i s hwide hi hready ha
  obtain ⟨c, hr⟩ := hready.exists_context
  cases hz : isZero src (opA src s) with
  | true =>
    obtain ⟨hfinite, hsign, hval⟩ := packZero_packedAs dst (signOf src (opA src s))
    refine ⟨_, completes_fcvtFF hi hr ?_, hfinite, hsign, hval.trans (val_of_abs_val (abs_val_of_isZero ha hz)).symm⟩
    have hflags : _ = 0#16 := denormal1_of_isZero hz
    exact (cvtFF_of_isZero ha hz).trans (congrArg (Result.mk _) hflags.symm)
  | false =>
    obtain ⟨hfinite, hsign, hval⟩ := packFinite_packedAs (signOf src (opA src s)) (unpack_m_pos ha hz)
      (isMember_of_widening hwide ha hz)
    exact ⟨_, completes_fcvtFF hi hr (cvtFF_of_widening c hwide ha hz), hfinite, hsign,
      hval.trans (val_of_abs_val (abs_val src _)).symm⟩

end Sys2Proof.Machine
end

section
/-! PROOFS. FCVT of a NaN between float formats (48_converter.md R206): the sign and the top-aligned payload are kept,
and the quiet bit is set. -/

namespace Sys2Proof.Machine

/-! ### The quiet bit -/

theorem quietBit_eq_twoPow (f : Fmt) : quietBit f = BitVec.twoPow 80 (fracBits f - 1) := by cases f <;> decide

theorem fracBits_pos (f : Fmt) : 0 < fracBits f := by cases f <;> decide

section
variable {f : Fmt} {a : Word80}

theorem testBit_fracOf (f : Fmt) (a : Word80) {j : Nat} (h : j < fracBits f) :
    (fracOf f a).testBit j = a.getLsbD j := by
  simp [fracOf, BitVec.testBit_toNat, h]

/-- A supported value with the all-ones exponent and the quiet bit set is a quiet NaN (40_codec.md R69). -/
theorem isQNaN_of_fields (hexp : expOf f a = expMax f) (hj : f = .X → jBit a = true)
    (hquiet : a.getLsbD (fracBits f - 1) = true) : isQNaN f a = true ∧ unsupported f a = false := by
  have hfrac : fracOf f a ≠ 0 := by
    intro hzero
    rw [← testBit_fracOf f a (Nat.sub_lt (fracBits_pos f) Nat.one_pos), hzero, Nat.zero_testBit] at hquiet
    exact Bool.noConfusion hquiet
  have hu : unsupported f a = false := by
    cases f with
    | X => simp [unsupported, hj rfl]
    | S | D => rfl
  have hnan : isNaN f a = true := by
    cases f with
    | X => exact (isNaN_X_iff a).mpr (.inr ⟨hexp, hfrac⟩)
    | S | D => exact (isNaN_iff_of_ne_X (by decide) a).mpr ⟨hexp, hfrac⟩
  have hs : isSNaN f a = false := by
    rw [Bool.eq_false_iff, Ne, isSNaN_iff, hu, hquiet]
    simp
  exact ⟨by simp [isQNaN, hnan, hs], hu⟩

/-- Quieting a NaN that is quiet leaves it as it is (40_codec.md R70). -/
theorem quiet_of_not_isSNaN (hn : isNaN f a = true) (hs : isSNaN f a = false) : quiet f a = a := by
  have hquiet : a.getLsbD (fracBits f - 1) = true := by
    rw [← Bool.not_eq_false]
    exact fun hclear => Bool.eq_false_iff.mp hs ((isSNaN_iff f a).mpr (.inr ⟨hn, hclear⟩))
  rw [quiet, quietBit_eq_twoPow]
  apply BitVec.eq_of_getLsbD_eq
  intro j _
  rw [BitVec.getLsbD_or, BitVec.getLsbD_twoPow, Bool.or_eq_left_iff_imp, Bool.and_eq_true, decide_eq_true_iff,
    decide_eq_true_iff]
  rintro ⟨-, rfl⟩
  exact hquiet

theorem signOf_quiet (f : Fmt) (a : Word80) : signOf f (quiet f a) = signOf f a := by
  have hclear : (quietBit f).getLsbD (fmtBits f - 1) = false := by cases f <;> decide
  rw [signOf, quiet, BitVec.getLsbD_or, hclear, Bool.or_false, signOf]

theorem expOf_quiet (f : Fmt) (a : Word80) : expOf f (quiet f a) = expOf f a := by
  have hclear : (quietBit f).extractLsb' (sigBits f) (expBits f) = 0 := by cases f <;> decide
  rw [expOf, quiet, BitVec.extractLsb'_or, hclear, expOf]
  simp

theorem sigOf_quiet (f : Fmt) (a : Word80) : sigOf f (quiet f a) = sigOf f a ||| 2 ^ (fracBits f - 1) := by
  have hbit : ((quietBit f).extractLsb' 0 (sigBits f)).toNat = 2 ^ (fracBits f - 1) := by cases f <;> decide
  rw [sigOf, quiet, BitVec.extractLsb'_or, BitVec.toNat_or, hbit, sigOf]

/-- Quieting a NaN of binary32 or binary64 sets one bit of its fraction. -/
theorem quiet_eq_mkPacked (hf : f ≠ .X) (hlt : a.toNat < 2 ^ fmtBits f) (hn : isNaN f a = true) :
    quiet f a = mkPacked f (signOf f a) (expMax f) (fracOf f a ||| 2 ^ (fracBits f - 1)) := by
  obtain ⟨hexp, -⟩ := (isNaN_iff_of_ne_X hf a).mp hn
  have hfields := mkPacked_of_fields f (quiet f a) (quiet_lt hlt)
  rw [← hfields, signOf_quiet, expOf_quiet, hexp, sigOf_quiet, ← fracOf_of_ne_X hf]

end

/-! ### The payload -/

/-- The payload is aligned at the top of the fraction: where the destination is shorter, its low bits are lost. -/
theorem nanPayload_eq (src dst : Fmt) (fr : Nat) :
    nanPayload src dst fr = fr * 2 ^ fracBits dst / 2 ^ fracBits src ||| 2 ^ (fracBits dst - 1) := by
  unfold nanPayload
  congr 1
  split
  case isTrue h =>
    obtain ⟨k, hk⟩ := Nat.exists_eq_add_of_le h
    rw [hk, Nat.add_sub_cancel_left, Nat.pow_add, Nat.mul_left_comm, Nat.mul_div_cancel_left _ (Nat.two_pow_pos _)]
  case isFalse h =>
    obtain ⟨k, hk⟩ := Nat.exists_eq_add_of_le (Nat.le_of_not_le h)
    rw [hk, Nat.add_sub_cancel_left, Nat.pow_add, Nat.mul_comm fr, Nat.mul_div_mul_left _ _ (Nat.two_pow_pos _)]

theorem nanPayload_lt (src dst : Fmt) {fr : Nat} (h : fr < 2 ^ fracBits src) :
    nanPayload src dst fr < 2 ^ fracBits dst := by
  have hquiet : 2 ^ (fracBits dst - 1) < 2 ^ fracBits dst :=
    Nat.pow_lt_pow_right one_lt_two (Nat.sub_lt (fracBits_pos dst) Nat.one_pos)
  rw [nanPayload_eq]
  refine Nat.or_lt_two_pow ?_ hquiet
  rw [Nat.div_lt_iff_lt_mul (Nat.two_pow_pos _), Nat.mul_comm]
  exact Nat.mul_lt_mul_of_pos_left h (Nat.two_pow_pos _)

theorem testBit_nanPayload (src dst : Fmt) (fr : Nat) : (nanPayload src dst fr).testBit (fracBits dst - 1) = true := by
  rw [nanPayload_eq, Nat.testBit_or, Nat.testBit_two_pow_self, Bool.or_true]

/-- A payload that was extended is cut back to itself. -/
theorem nanPayload_nanPayload {src dst : Fmt} (h : fracBits src < fracBits dst) (fr : Nat) :
    nanPayload dst src (nanPayload src dst fr) = fr ||| 2 ^ (fracBits src - 1) := by
  have hpos := fracBits_pos src
  have hquiet : 2 ^ (fracBits dst - 1) >>> (fracBits dst - fracBits src) = 2 ^ (fracBits src - 1) := by
    rw [Nat.shiftRight_eq_div_pow, Nat.pow_div (by omega) two_pos]
    congr 1
    omega
  have hback : (fr * 2 ^ (fracBits dst - fracBits src)) >>> (fracBits dst - fracBits src) = fr := by
    rw [Nat.shiftRight_eq_div_pow, Nat.mul_div_cancel _ (Nat.two_pow_pos _)]
  rw [nanPayload, nanPayload, if_neg (by omega), if_pos h.le, ← Nat.shiftRight_eq_div_pow, Nat.shiftRight_or_distrib,
    hquiet, hback, Nat.or_assoc, Nat.or_self]

/-! ### The converted NaN -/

section
variable {src dst : Fmt} {a : Word80}

theorem cvtNaN_value_of_ne_X (hdst : dst ≠ .X) : (cvtNaN src dst a).value =
    mkPacked dst (signOf src a) (expMax dst) (nanPayload src dst (fracOf src a)) := by
  cases dst with
  | X => exact absurd rfl hdst
  | S | D => simp [cvtNaN]

theorem cvtNaN_value_X : (cvtNaN src .X a).value =
    mkPacked .X (signOf src a) (expMax .X) (2 ^ 63 + nanPayload src .X (fracOf src a)) := rfl

theorem signOf_cvtNaN : signOf dst (cvtNaN src dst a).value = signOf src a := signOf_mkPacked ..

theorem expOf_cvtNaN : expOf dst (cvtNaN src dst a).value = expMax dst :=
  (expOf_mkPacked ..).trans (by cases dst <;> rfl)

theorem fracOf_cvtNaN : fracOf dst (cvtNaN src dst a).value = nanPayload src dst (fracOf src a) := by
  have hlt : nanPayload src dst (fracOf src a) < 2 ^ fracBits dst := nanPayload_lt src dst (BitVec.isLt _)
  cases dst with
  | X =>
    rw [cvtNaN_value_X, fracOf_mkPacked]
    exact (Nat.add_mod_left ..).trans (Nat.mod_eq_of_lt hlt)
  | S | D => rw [cvtNaN_value_of_ne_X (by decide), fracOf_mkPacked, Nat.mod_eq_of_lt hlt]

theorem jBit_cvtNaN_X : jBit (cvtNaN src .X a).value = true := by
  have hlt : nanPayload src .X (fracOf src a) < 2 ^ 63 := nanPayload_lt src .X (BitVec.isLt _)
  rw [jBit_eq_true_iff, cvtNaN_value_X, sigOf_mkPacked]
  simp only [sigBits, fracBits, precBits]
  omega

/-- A converted NaN is quiet and supported, whether the operand was quiet or not. -/
theorem isQNaN_cvtNaN :
    isQNaN dst (cvtNaN src dst a).value = true ∧ unsupported dst (cvtNaN src dst a).value = false := by
  refine isQNaN_of_fields expOf_cvtNaN ?_ ?_
  · rintro rfl
    exact jBit_cvtNaN_X
  · rw [← testBit_fracOf dst _ (Nat.sub_lt (fracBits_pos dst) Nat.one_pos), fracOf_cvtNaN, testBit_nanPayload]

end

/-- Settles O57, from the fields of the converted NaN. -/
theorem convertedNaNsKeepSignAndPayload : Obligations.ConvertedNaNsKeepSignAndPayload := by
  intro src dst i s hi hready hu hn
  obtain ⟨c, hr⟩ := hready.exists_context
  obtain ⟨hq, -⟩ := isQNaN_cvtNaN (src := src) (dst := dst) (a := opA src s)
  exact ⟨_, completes_fcvtFF hi hr (cvtFF_of_isNaN hu hn), hq, signOf_cvtNaN,
    fracOf_cvtNaN.trans (nanPayload_eq ..)⟩

end Sys2Proof.Machine
end

section
/-! PROOFS. Up to a wider format and back (48_converter.md R236): class by class, the second conversion undoes the
first. -/

namespace Sys2Proof.Machine

theorem fltOperand_of_lt {f : Fmt} {a : Word80} (h : a.toNat < 2 ^ fmtBits f) : fltOperand f a = a := by
  apply BitVec.eq_of_toNat_eq
  rw [fltOperand, BitVec.toNat_setWidth, BitVec.toNat_setWidth, Nat.mod_eq_of_lt h, Nat.mod_eq_of_lt a.isLt]

theorem isInf_packInf (f : Fmt) (s : Bool) : isInf f (packInf f s) = true := by
  cases f <;> cases s <;> decide

theorem isZero_packZero (f : Fmt) (s : Bool) : isZero f (packZero f s) = true := by
  cases f <;> cases s <;> decide

theorem signOf_packInf (f : Fmt) (s : Bool) : signOf f (packInf f s) = s := signOf_mkPacked ..

theorem signOf_packZero (f : Fmt) (s : Bool) : signOf f (packZero f s) = s := signOf_mkPacked ..

theorem isZero_of_abs_val_pos {f : Fmt} {a : Word80} (ha : isFinite f a = true) (h : 0 < |val f a|) :
    isZero f a = false :=
  Bool.eq_false_iff.mpr fun hz => h.ne' (abs_val_of_isZero ha hz)

/-- Outside extended80 there are no pseudo-denormals, and packing what Unpack gives returns every finite nonzero value
(40_codec.md R88). -/
theorem packFinite_unpack {f : Fmt} {a : Word80} (hf : f ≠ .X) (hlt : a.toNat < 2 ^ fmtBits f)
    (ha : isFinite f a = true) (hz : isZero f a = false) :
    packFinite f (signOf f a) (unpack f a).m (unpack f a).q = a := by
  have hclass : isDenorm f a = true ∨ classify f a = .normalized := by
    cases hclass : classify f a <;> simp_all [isFinite, isZero, isDenorm]
  obtain ⟨hnonzero, -⟩ := packUndoesUnpack f a hlt
  rw [← unpack_sign, hnonzero hclass, if_neg fun ⟨hX, _⟩ => hf hX]

/-- The flags of the way up. -/
def wideningFlags (f : Fmt) (a : Word80) : Word16 :=
  if isSNaN f a then 0x0001 else if isDenorm f a then 0x0002 else 0

/-- The result of the way back: a subnormal is flushed where FTZ is set, and a NaN is quiet. -/
def widenedBack (c : Context) (f : Fmt) (a : Word80) : Result :=
  if isDenorm f a = true ∧ c.ftz = true then { value := packZero f (signOf f a), flags := 0x0030 }
  else { value := if isSNaN f a then a ||| quietBit f else a, flags := 0 }

/-- `v` is `a` in the wider format: converting `a` gives it, with the flags of the way up, and converting it back gives
`a` again, as far as the way back does. -/
structure WidensTo (c : Context) (src dst : Fmt) (a v : Word80) : Prop where
  up : cvtFF Config.fpe1 c src dst a = { value := v, flags := wideningFlags src a }
  back : cvtFF Config.fpe1 c dst src v = widenedBack c src a

section
variable {f : Fmt} {a : Word80} {c : Context}

theorem isSNaN_of_not_isNaN (h : isNaN f a = false) : isSNaN f a = false := by
  rw [Bool.eq_false_iff, Ne, isSNaN_iff]
  simp [h, unsupported_of_not_isNaN]

theorem isDenorm_of_isInf (h : isInf f a = true) : isDenorm f a = false := by
  cases hclass : classify f a <;> simp_all [isInf, isDenorm]

theorem isDenorm_of_isZero (h : isZero f a = true) : isDenorm f a = false := by
  have hclass : classify f a = .zero := by simpa [isZero] using h
  simp [isDenorm, hclass]

theorem isDenorm_of_isNaN (h : isNaN f a = true) : isDenorm f a = false := by
  have hclass : classify f a = .nan := by simpa [isNaN] using h
  simp [isDenorm, hclass]

/-- Neither subnormal nor NaN: no flag on the way up, the operand itself on the way back. -/
theorem widening_plain (hn : isNaN f a = false) (hd : isDenorm f a = false) :
    wideningFlags f a = 0#16 ∧ widenedBack c f a = { value := a, flags := 0#16 } := by
  simp [wideningFlags, widenedBack, hd, isSNaN_of_not_isNaN hn]

end

section
variable {src dst : Fmt} {a : Word80}

theorem widensTo_of_isInf (c : Context) (hlt : a.toNat < 2 ^ fmtBits src) (h : isInf src a = true) :
    WidensTo c src dst a (packInf dst (signOf src a)) := by
  obtain ⟨hflags, hback⟩ := widening_plain (c := c) (isNaN_of_isInf h) (isDenorm_of_isInf h)
  refine ⟨by rw [cvtFF_of_isInf h, hflags], ?_⟩
  rw [cvtFF_of_isInf (isInf_packInf ..), hback, signOf_packInf, ← eq_packInf_of_isInf hlt h]

theorem widensTo_of_isZero (c : Context) (hlt : a.toNat < 2 ^ fmtBits src) (h : isZero src a = true) :
    WidensTo c src dst a (packZero dst (signOf src a)) := by
  have ha := isFinite_of_isZero h
  have hz := isZero_packZero dst (signOf src a)
  obtain ⟨-, hzero⟩ := packUndoesUnpack src a hlt
  obtain ⟨hflags, hback⟩ := widening_plain (c := c) (isNaN_of_isFinite ha) (isDenorm_of_isZero h)
  refine ⟨by rw [cvtFF_of_isZero ha h, hflags], ?_⟩
  rw [cvtFF_of_isZero (isFinite_of_isZero hz) hz, hback, signOf_packZero, hzero h]

/-- The NaN that comes back has the payload of the operand, with the quiet bit set. -/
theorem widensTo_of_isNaN (c : Context) (hwide : fmtBits src < fmtBits dst) (hlt : a.toNat < 2 ^ fmtBits src)
    (h : isNaN src a = true) : WidensTo c src dst a (cvtNaN src dst a).value := by
  obtain ⟨hsrc, hfrac, -, -⟩ := widening_range hwide
  obtain ⟨hq, hu⟩ := isQNaN_cvtNaN (src := src) (dst := dst) (a := a)
  have hd := isDenorm_of_isNaN h
  obtain ⟨hnan, hs⟩ : isNaN dst (cvtNaN src dst a).value = true ∧ isSNaN dst (cvtNaN src dst a).value = false := by
    simpa [isQNaN] using hq
  have hvalue : (cvtNaN dst src (cvtNaN src dst a).value).value = quiet src a := by
    rw [cvtNaN_value_of_ne_X hsrc, signOf_cvtNaN, fracOf_cvtNaN, nanPayload_nanPayload hfrac,
      quiet_eq_mkPacked hsrc hlt h]
  have hkept : quiet src a = if isSNaN src a then a ||| quietBit src else a := by
    cases hsig : isSNaN src a with
    | true => rfl
    | false => exact quiet_of_not_isSNaN h hsig
  refine ⟨?_, ?_⟩
  · rw [cvtFF_of_isNaN (unsupported_of_ne_X hsrc a) h, wideningFlags, hd]
    rfl
  · rw [cvtFF_of_isNaN hu hnan, widenedBack, if_neg (by simp [hd]), ← hkept, ← hvalue]
    exact congrArg (Result.mk _) (by rw [hs]; rfl)

/-- The wider format holds a subnormal as a normal number, so that the way back raises no `denormal`. -/
theorem cvtDenormal_packFinite_of_widening (hwide : fmtBits src < fmtBits dst) (ha : isFinite src a = true)
    (hz : isZero src a = false) :
    cvtDenormal dst (packFinite dst (signOf src a) (unpack src a).m (unpack src a).q) = 0#16 := by
  obtain ⟨-, -, -, hclass, -⟩ := packFiniteIsExact dst (signOf src a) _ _ (unpack_m_pos ha hz)
    (isMember_of_widening hwide ha hz)
  rw [if_pos (isNormal_of_widening hwide ha hz)] at hclass
  rw [cvtDenormal_eq, if_neg]
  simp [isDenorm, hclass]

theorem widensTo_of_nonzero (c : Context) (hwide : fmtBits src < fmtBits dst) (hlt : a.toNat < 2 ^ fmtBits src)
    (ha : isFinite src a = true) (hz : isZero src a = false) :
    WidensTo c src dst a (packFinite dst (signOf src a) (unpack src a).m (unpack src a).q) := by
  obtain ⟨hsrc, -, -, -⟩ := widening_range hwide
  have hm := unpack_m_pos ha hz
  have hs := isSNaN_of_not_isNaN (isNaN_of_isFinite ha)
  obtain ⟨hfinite, hsign, hval⟩ := packFinite_packedAs (signOf src a) hm (isMember_of_widening hwide ha hz)
  have habs : ((unpack src a).m : ℚ) * 2 ^ (unpack src a).q =
      |val dst (packFinite dst (signOf src a) (unpack src a).m (unpack src a).q)| := by
    rw [hval, abs_mul, abs_signFactor, one_mul, abs_of_nonneg (by positivity)]
  have hz' := isZero_of_abs_val_pos hfinite (habs ▸ (scaled_pos_iff ..).mpr hm)
  refine ⟨?_, ?_⟩
  · rw [cvtFF_of_widening c hwide ha hz, wideningFlags, hs]
    rfl
  · rw [cvtFF_eq_roundPack _ c hfinite hz' habs, hsign, cvtDenormal_packFinite_of_widening hwide ha hz,
      membersAreReturnedUnchanged _ c src _ _ _ _ (.inl rfl) rfl hm (isMember_unpack ha hz),
      packFinite_unpack hsrc hlt ha hz, widenedBack, hs]
    simp only [← isDenorm_iff_lt hsrc ha hz, Result.also, BitVec.zero_or]
    rfl

/-- Every operand goes up and comes back. -/
theorem exists_widensTo (c : Context) (hwide : fmtBits src < fmtBits dst) (hlt : a.toNat < 2 ^ fmtBits src) :
    ∃ v, WidensTo c src dst a v := by
  obtain ⟨ha, -, -⟩ | ⟨-, hinf, -⟩ | ⟨-, -, hnan⟩ := isFinite_or_isInf_or_isNaN src a
  · cases hz : isZero src a with
    | true => exact ⟨_, widensTo_of_isZero c hlt hz⟩
    | false => exact ⟨_, widensTo_of_nonzero c hwide hlt ha hz⟩
  · exact ⟨_, widensTo_of_isInf c hlt hinf⟩
  · exact ⟨_, widensTo_of_isNaN c hwide hlt hnan⟩

theorem readsOpb_of_fcvtFFI {i : Instr} (h : fcvtFFI src dst = some i) : readsOpb i = false := by
  cases src <;> cases dst <;> cases h <;> rfl

end

/-- A one-operand command may run on any operand where another command may run. -/
theorem ReadyUnder.with_opa {i j : Instr} {s : State} {c : Context} (h : ReadyUnder i s c) (hj : readsOpb j = false)
    (v : Word80) : ReadyUnder j { s with opa := v } c := by
  obtain ⟨hc, ha, -⟩ := h
  exact ⟨hc, ha, by simp [hj]⟩

/-- Settles O58: the wider value is an operand of the second command in full, as it fits the wider format. -/
theorem wideningAndBackIsTheIdentity : Obligations.WideningAndBackIsTheIdentity := by
  intro src dst i j s c hwide hi hj hr
  obtain ⟨v, hup, hback⟩ := exists_widensTo c hwide (fltOperand_lt src s.opa)
  obtain ⟨hlt, -⟩ := cvtFF_fits Config.fpe1 c src dst (fltOperand src s.opa)
  rw [hup] at hlt
  have hrj : ReadyUnder j { s with opa := v } c := hr.with_opa (readsOpb_of_fcvtFFI hj) v
  have hv : opA dst { s with opa := v } = v := fltOperand_of_lt hlt
  exact ⟨v, completes_fcvtFF hi hr hup, completes_fcvtFF hj hrj ((congrArg _ hv).trans hback)⟩

end Sys2Proof.Machine
end

section
/-! PROOFS. FCVT from an integer (48_converter.md R214, R215) and FCVT and FCVTT to one (49_float_to_int.md R222,
R223). -/

namespace Sys2Proof.Machine

/-! ### Integer to float -/

section
variable {P : Config.Params} {c : Context} {dst : Fmt} {n : Int}

theorem cvtIF_zero : cvtIF P c dst 0 = { value := packZero dst false, flags := 0#16 } := if_pos rfl

theorem cvtIF_of_ne_zero (h : n ≠ 0) :
    cvtIF P c dst n = roundPack P c dst (precBits dst) (decide (n < 0)) n.natAbs 0 false := if_neg h

/-- An integer and the quantum 1 describe its magnitude. -/
theorem natAbs_describes (n : Int) : (n.natAbs : ℚ) * 2 ^ (0 : Int) = |(n : ℚ)| := by
  rw [zpow_zero, mul_one, Nat.cast_natAbs, Int.cast_abs]

theorem signFactor_mul_natAbs (n : Int) : signFactor (decide (n < 0)) * n.natAbs = n := by
  obtain h | h := lt_or_ge n 0
  · rw [decide_eq_true h, Nat.cast_natAbs, abs_of_neg h]
    simp [signFactor]
  · rw [decide_eq_false h.not_gt, Nat.cast_natAbs, abs_of_nonneg h]
    simp [signFactor]

theorem emin_nonpos (f : Fmt) : emin f ≤ 0 := by cases f <;> decide

theorem precBits_le_emax (f : Fmt) : (precBits f : Int) ≤ emax f := by cases f <;> decide

/-- An integer whose magnitude fits the significand is a member of the format. -/
theorem isMember_natAbs {f : Fmt} (hn : n ≠ 0) (hlt : n.natAbs < 2 ^ precBits f) :
    IsMember f (precBits f) (n.natAbs * 2 ^ (0 : Int)) := by
  have hmin := emin_nonpos f
  have hmax := precBits_le_emax f
  have hprec := one_le_precBits f
  have hbelow : (n.natAbs : ℚ) * 2 ^ (0 : Int) < 2 ^ (0 + precBits f : Int) := (scaled_lt_iff ..).mpr hlt
  exact isMember_of_lt (Int.natAbs_pos.mpr hn) hlt (by omega)
    (hbelow.trans_le (zpow_le_zpow_right₀ one_le_two (by omega)))

/-- Such an integer is packed as it is. -/
theorem cvtIF_of_short (c : Context) (hn : n ≠ 0) (hlt : n.natAbs < 2 ^ precBits dst) :
    cvtIF Config.fpe1 c dst n = { value := packFinite dst (decide (n < 0)) n.natAbs 0, flags := 0#16 } := by
  have hpos : 1 ≤ n.natAbs := Int.natAbs_pos.mpr hn
  have hnormal : (2 : ℚ) ^ emin dst ≤ n.natAbs * 2 ^ (0 : Int) := calc
    (2 : ℚ) ^ emin dst ≤ 2 ^ (0 : Int) := zpow_le_zpow_right₀ one_le_two (emin_nonpos dst)
    _ ≤ n.natAbs * 2 ^ (0 : Int) := le_mul_of_one_le_left (by positivity) (by exact_mod_cast hpos)
  rw [cvtIF_of_ne_zero hn, roundPack_of_normal_member c _ hpos (isMember_natAbs hn hlt) hnormal]

end

/-- The magnitude of an integer operand fits in the bits of its type. -/
theorem natAbs_intOperand_lt (t : IntTy) (a : Word80) : (intOperand t a).natAbs < 2 ^ intBits t := by
  have hlow := BitVec.le_toInt (a.setWidth (intBits t))
  have hhigh := BitVec.toInt_lt (x := a.setWidth (intBits t))
  rw [intOperand]
  cases t <;> simp only [intBits] at hlow hhigh ⊢ <;> omega

theorem completes_fcvtIF {t : IntTy} {dst : Fmt} {s : State} {c : Context} {r : Result}
    (hr : ReadyUnder (fcvtIFI t dst) s c) (h : cvtIF Config.fpe1 c dst (intOperand t s.opa) = r) :
    Completes (fcvtIFI t dst) s r :=
  (Computes.fcvtIF t dst).completes_of_eq hr h

/-- Settles O59, by the branches of CvtIF; an integer no longer than the significand is a member. -/
theorem integersConvertByOneRounding : Obligations.IntegersConvertByOneRounding := by
  intro t dst s c hr n
  have hzero : packZero dst false = 0#80 := by cases dst <;> decide
  have hcvtzero (h : n = 0) : cvtIF Config.fpe1 c dst n = { value := packZero dst false, flags := 0#16 } := by
    rw [h, cvtIF_zero]
  refine ⟨fun h => ?zero, fun sig exp hn hdesc => ?rounded, fun hshort => ?exact⟩
  case zero => exact completes_fcvtIF hr ((hcvtzero h).trans (by rw [hzero]; rfl))
  case rounded =>
    have hpos : 0 < |(n : ℚ)| := abs_pos.mpr (Int.cast_ne_zero.mpr hn)
    refine completes_fcvtIF hr ((cvtIF_of_ne_zero hn).trans ?_)
    exact roundPack_congr_of_exact _ c dst _ (one_le_precBits dst) hpos (natAbs_describes n) hdesc
  case exact =>
    by_cases h : n = 0
    · obtain ⟨hfinite, -, hval⟩ := packZero_packedAs dst false
      exact ⟨_, completes_fcvtIF hr (hcvtzero h), hfinite, by rw [hval, h]; simp⟩
    · have hlt : n.natAbs < 2 ^ precBits dst :=
        (natAbs_intOperand_lt t s.opa).trans_le (Nat.pow_le_pow_right two_pos hshort)
      obtain ⟨hfinite, -, hval⟩ :=
        packFinite_packedAs (decide (n < 0)) (Int.natAbs_pos.mpr h) (isMember_natAbs h hlt)
      rw [zpow_zero, mul_one, signFactor_mul_natAbs] at hval
      exact ⟨_, completes_fcvtIF hr (cvtIF_of_short c h hlt), hfinite, hval⟩

/-! ### Float to integer -/

theorem inRange_eq_false_iff (t : IntTy) (v : Int) :
    inRange t v = false ↔ v < -2 ^ (intBits t - 1) ∨ 2 ^ (intBits t - 1) - 1 < v := by
  simp [inRange, imp_iff_not_or]

section
variable {P : Config.Params} {c : Context} {src : Fmt} {t : IntTy} {a : Word80} {trunc : Bool}

theorem cvtFI_of_not_isFinite (h : isFinite src a = false) : cvtFI P c src t a trunc = invalidInt P t := by
  have hclass : isNaN src a = true ∨ isInf src a = true := by
    obtain ⟨ha, -, -⟩ | ⟨-, hinf, -⟩ | ⟨-, -, hnan⟩ := isFinite_or_isInf_or_isNaN src a
    · simp [ha] at h
    · exact .inr hinf
    · exact .inl hnan
  obtain hnan | hinf := hclass
  · simp [cvtFI, hnan]
  · simp [cvtFI, hinf]

/-- The result for the rounded magnitude `n`: the sentinel where the integer is out of range, the integer where not
(R222). -/
def intDelivered (P : Config.Params) (src : Fmt) (t : IntTy) (a : Word80) (n : Nat) : Result :=
  if inRange t (signedInt (signOf src a) n) = false then invalidInt P t
  else
    { value := intResult t (signedInt (signOf src a) n),
      flags := if (n : ℚ) = |val src a| then 0x0000#16 else 0x0020#16 }

theorem cvtFI_of_isZero (ha : isFinite src a = true) (hz : isZero src a = true) :
    cvtFI P c src t a trunc = intDelivered P src t a 0 := by
  have hn := isNaN_of_isFinite ha
  have hsigned : signedInt (signOf src a) 0 = 0 := by cases signOf src a <;> rfl
  have hrange : inRange t 0 = true := by cases t <;> decide
  have hvalue : intResult t 0 = 0#80 := by cases t <;> decide
  rw [intDelivered, hsigned, hrange, hvalue, abs_val_of_isZero ha hz]
  simp [cvtFI, hn, unsupported_of_not_isNaN, isInf_of_isFinite ha, hz]

/-- A finite nonzero operand has its magnitude rounded at the quantum 1, in the mode asked for. -/
theorem cvtFI_of_nonzero {n : Nat} (ha : isFinite src a = true) (hz : isZero src a = false)
    (hround : RoundsTo (if trunc then .towardZero else c.rm) (signOf src a) ((|val src a| : ℚ) : ℝ) 0 n) :
    cvtFI P c src t a trunc = intDelivered P src t a n := by
  have hn := isNaN_of_isFinite ha
  have hrounded : roundAt (if trunc then .towardZero else c.rm) (signOf src a) (unpack src a).m (unpack src a).q
      false 0 = roundedTo ((|val src a| : ℚ) : ℝ) 0 n :=
    roundAt_eq_roundedTo (describes_exact_iff.mpr (abs_val_cast src a)) (by simp) hround
  have hm : (roundedTo ((|val src a| : ℚ) : ℝ) 0 n).m = n := rfl
  have hinexact : (roundedTo ((|val src a| : ℚ) : ℝ) 0 n).inexact = decide ((n : ℚ) ≠ |val src a|) := by
    rw [roundedTo, decide_eq_decide, zpow_zero, mul_one]
    exact_mod_cast Iff.rfl
  have hflags : raiseIf (roundedTo ((|val src a| : ℚ) : ℝ) 0 n).inexact .inexact =
      if (n : ℚ) = |val src a| then 0x0000#16 else 0x0020#16 := by
    rw [hinexact]
    simp [raiseIf, Flag.bit]
  simp only [cvtFI, hn, unsupported_of_not_isNaN hn, isInf_of_isFinite ha, hz, unpack_sign, hrounded, hm, hflags,
    intDelivered]
  cases inRange t (signedInt (signOf src a) n) <;> rfl

theorem cvtFI_of_isFinite {n : Nat} (ha : isFinite src a = true)
    (hround : RoundsTo (if trunc then .towardZero else c.rm) (signOf src a) ((|val src a| : ℚ) : ℝ) 0 n) :
    cvtFI P c src t a trunc = intDelivered P src t a n := by
  cases hz : isZero src a with
  | false => exact cvtFI_of_nonzero ha hz hround
  | true =>
    have hself : ((|val src a| : ℚ) : ℝ) = (0 : Nat) * 2 ^ (0 : Int) := by simp [abs_val_of_isZero ha hz]
    rw [hround.unique (roundsTo_self hself), cvtFI_of_isZero ha hz]

end

/-- Settles O60, by the branches of CvtFI. -/
theorem floatToIntegerRoundsOrIsInvalid : Obligations.FloatToIntegerRoundsOrIsInvalid := by
  intro trunc src t s c hr
  have hcompletes {r : Result} (h : cvtFI Config.fpe1 c src t (opA src s) trunc = r) :
      Completes (fcvtFII trunc src t) s r := (Computes.fcvtFI trunc src t).completes_of_eq hr h
  refine ⟨fun ha => ?invalid, fun n ha hround => ?rounded⟩
  case invalid => exact hcompletes (cvtFI_of_not_isFinite ha)
  case rounded =>
    refine hcompletes ((cvtFI_of_isFinite ha hround).trans ?_)
    exact if_congr (inRange_eq_false_iff ..) rfl rfl

end Sys2Proof.Machine
end

section
/-! PROOFS. The flags one command adds (60_exceptions.md R242): `invalid` and `divbyzero` come alone, and what rounding
adds comes with or without `denormal`. -/

namespace Sys2Proof.Machine

/-- The sets of flags rounding can raise. -/
def roundingSets : List Word16 :=
  [0#16, raise [.inexact], raise [.inexact, .plu], raise [.overflow, .inexact], raise [.overflow, .inexact, .plu],
    raise [.underflow, .inexact], raise [.underflow, .inexact, .plu]]

/-- One of the sixteen sets of R242. -/
def OneOfSixteen (w : Word16) : Prop :=
  w = raise [.invalid] ∨ w = raise [.divbyzero] ∨
    ∃ d ∈ [0#16, raise [.denormal]], ∃ e ∈ roundingSets, w = d ||| e

/-! ### How the sets arise -/

theorem oneOfSixteen_invalid : OneOfSixteen (raise [.invalid]) := .inl rfl

theorem oneOfSixteen_divbyzero : OneOfSixteen (raise [.divbyzero]) := .inr (.inl rfl)

theorem oneOfSixteen_of_rounding {e : Word16} (denormal : Bool) (he : e ∈ roundingSets) :
    OneOfSixteen (raiseIf denormal .denormal ||| e) :=
  .inr (.inr ⟨raiseIf denormal .denormal, by cases denormal <;> decide, e, he, rfl⟩)

theorem zero_mem_roundingSets : 0#16 ∈ roundingSets := List.mem_cons_self

theorem oneOfSixteen_of_mem {e : Word16} (he : e ∈ roundingSets) : OneOfSixteen e :=
  BitVec.zero_or (x := e) ▸ oneOfSixteen_of_rounding false he

theorem oneOfSixteen_zero : OneOfSixteen 0#16 := oneOfSixteen_of_mem zero_mem_roundingSets

theorem oneOfSixteen_denormal (denormal : Bool) : OneOfSixteen (raiseIf denormal .denormal) :=
  BitVec.or_zero (x := raiseIf denormal .denormal) ▸ oneOfSixteen_of_rounding denormal zero_mem_roundingSets

theorem oneOfSixteen_invalid_if (signaling : Bool) : OneOfSixteen (raiseIf signaling .invalid) := by
  cases signaling
  · exact oneOfSixteen_zero
  · exact oneOfSixteen_invalid

/-! ### Rounding -/

theorem overflow_mem_roundingSets : raise [.overflow, .inexact] ∈ roundingSets := by decide

theorem underflow_mem_roundingSets : raise [.underflow, .inexact] ∈ roundingSets := by decide

theorem overflow_plu_mem_roundingSets (plu : Bool) :
    raise [.overflow, .inexact] ||| raiseIf plu .plu ∈ roundingSets := by
  cases plu <;> decide

theorem overflowResult_mem_roundingSets (c : Context) (f : Fmt) (p : Nat) (s : Bool) :
    (overflowResult c f p s).flags ∈ roundingSets := by
  unfold overflowResult
  split
  · exact overflow_plu_mem_roundingSets _
  · exact overflow_mem_roundingSets

/-- With UNDERFLOW_NEEDS_INEXACT `underflow` and `plu` come with `inexact` only. -/
theorem inexact_mem_roundingSets (tiny inexact up : Bool) :
    raiseIf (tiny && inexact) .underflow ||| raiseIf inexact .inexact ||| raiseIf (inexact && up) .plu ∈
      roundingSets := by
  revert tiny inexact up
  decide

theorem deliver_mem_roundingSets {P : Config.Params} (hP : P.underflowNeedsInexact = true) (f : Fmt) (s tiny : Bool)
    (q : Int) (r : Rounded) : (deliver P f s tiny q r).flags ∈ roundingSets := by
  simp only [deliver, hP, Bool.not_true, Bool.or_false, Bool.and_assoc]
  exact inexact_mem_roundingSets ..

theorem roundPack_mem_roundingSets {P : Config.Params} (hP : P.underflowNeedsInexact = true) (c : Context) (f : Fmt)
    (p : Nat) (s : Bool) (sig : Nat) (exp : Int) (sticky : Bool) :
    (roundPack P c f p s sig exp sticky).flags ∈ roundingSets := by
  unfold roundPack
  dsimp only
  split_ifs
  · exact overflowResult_mem_roundingSets ..
  · exact underflow_mem_roundingSets
  · exact deliver_mem_roundingSets hP ..

theorem rintFinite_mem_roundingSets (c : Context) (f : Fmt) (a : Word80) (u : Unpacked) :
    (rintFinite c f a u).flags ∈ roundingSets := by
  unfold rintFinite
  dsimp only
  split
  · exact zero_mem_roundingSets
  · simpa [Bool.and_assoc] using inexact_mem_roundingSets false _ _

theorem addFinite_mem_roundingSets {P : Config.Params} (hP : P.underflowNeedsInexact = true) (c : Context) (f : Fmt)
    (sa sb : Bool) (ua ub : Unpacked) : (addFinite P c f sa sb ua ub).flags ∈ roundingSets := by
  unfold addFinite
  dsimp only
  split
  · exact zero_mem_roundingSets
  · exact roundPack_mem_roundingSets hP ..

/-! ### The cores of the families -/

section
variable {P : Config.Params} (hP : P.underflowNeedsInexact = true) (c : Context) (f : Fmt) (a b : Word80)
include hP

theorem addCore_oneOfSixteen (neg : Bool) : OneOfSixteen (addCore P c f a b neg).flags := by
  unfold addCore
  dsimp only
  split_ifs
  · exact oneOfSixteen_invalid
  · exact oneOfSixteen_invalid_if _
  · exact oneOfSixteen_invalid
  · exact oneOfSixteen_denormal _
  · exact oneOfSixteen_denormal _
  · exact oneOfSixteen_of_rounding _ (addFinite_mem_roundingSets hP ..)

theorem mulCore_oneOfSixteen : OneOfSixteen (mulCore P c f a b).flags := by
  unfold mulCore
  dsimp only
  split_ifs
  · exact oneOfSixteen_invalid
  · exact oneOfSixteen_invalid_if _
  · exact oneOfSixteen_invalid
  · exact oneOfSixteen_denormal _
  · exact oneOfSixteen_denormal _
  · exact oneOfSixteen_of_rounding _ (roundPack_mem_roundingSets hP ..)

theorem divCore_oneOfSixteen : OneOfSixteen (divCore P c f a b).flags := by
  unfold divCore
  dsimp only
  split_ifs
  · exact oneOfSixteen_invalid
  · exact oneOfSixteen_invalid_if _
  · exact oneOfSixteen_invalid
  · exact oneOfSixteen_divbyzero
  · exact oneOfSixteen_denormal _
  · exact oneOfSixteen_denormal _
  · exact oneOfSixteen_denormal _
  · exact oneOfSixteen_of_rounding _ (roundPack_mem_roundingSets hP ..)

theorem sqrtCore_oneOfSixteen : OneOfSixteen (sqrtCore P c f a).flags := by
  unfold sqrtCore
  split_ifs
  · exact oneOfSixteen_invalid
  · exact oneOfSixteen_invalid_if _
  · exact oneOfSixteen_zero
  · exact oneOfSixteen_invalid
  · exact oneOfSixteen_zero
  · exact oneOfSixteen_of_rounding _ (roundPack_mem_roundingSets hP ..)

theorem cvtFF_oneOfSixteen (dst : Fmt) : OneOfSixteen (cvtFF P c f dst a).flags := by
  have hround {e : Word16} (he : e ∈ roundingSets) : OneOfSixteen (cvtDenormal f a ||| e) := by
    cases f with
    | S | D => exact oneOfSixteen_of_rounding _ he
    | X => exact oneOfSixteen_of_rounding false he
  unfold cvtFF
  dsimp only
  split_ifs
  · exact oneOfSixteen_invalid
  · exact oneOfSixteen_invalid_if _
  · exact oneOfSixteen_zero
  · exact oneOfSixteen_zero
  · exact hround (roundPack_mem_roundingSets hP ..)

theorem cvtIF_oneOfSixteen (n : Int) : OneOfSixteen (cvtIF P c f n).flags := by
  unfold cvtIF
  split
  · exact oneOfSixteen_zero
  · exact oneOfSixteen_of_mem (roundPack_mem_roundingSets hP ..)

end

theorem rintCore_oneOfSixteen (P : Config.Params) (c : Context) (f : Fmt) (a : Word80) :
    OneOfSixteen (rintCore P c f a).flags := by
  unfold rintCore
  split_ifs
  · exact oneOfSixteen_invalid
  · exact oneOfSixteen_invalid_if _
  · exact oneOfSixteen_zero
  · exact oneOfSixteen_of_rounding _ (rintFinite_mem_roundingSets ..)

theorem cvtFI_oneOfSixteen (P : Config.Params) (c : Context) (src : Fmt) (t : IntTy) (a : Word80) (trunc : Bool) :
    OneOfSixteen (cvtFI P c src t a trunc).flags := by
  have hinexact (inexact : Bool) : raiseIf inexact .inexact ∈ roundingSets := by cases inexact <;> decide
  unfold cvtFI
  generalize (if trunc then Rounding.towardZero else c.rm) = rm
  dsimp only
  split_ifs
  · exact oneOfSixteen_invalid
  · exact oneOfSixteen_zero
  · exact oneOfSixteen_of_mem (hinexact _)
  · exact oneOfSixteen_invalid

theorem cmpCore_oneOfSixteen (f : Fmt) (a b : Word80) (signaling : Bool) :
    OneOfSixteen (cmpCore f a b signaling).flags := by
  unfold cmpCore
  split_ifs
  · exact oneOfSixteen_invalid
  · exact oneOfSixteen_invalid_if _
  · exact oneOfSixteen_denormal _

/-! ### Every command -/

theorem Computes.oneOfSixteen {i : Instr} {src dst : OpType} {two : Bool} {op : Context → Word80 → Word80 → Result}
    (h : Computes i src dst two op) (c : Context) (a b : Word80) : OneOfSixteen (op c a b).flags := by
  have hP : Config.fpe1.underflowNeedsInexact = true := rfl
  cases h with
  | fadd f | fsub f => exact addCore_oneOfSixteen hP c f _ _ _
  | fmul f => exact mulCore_oneOfSixteen hP c f _ _
  | fdiv f => exact divCore_oneOfSixteen hP c f _ _
  | fsqrt f => exact sqrtCore_oneOfSixteen hP c f _
  | frint f => exact rintCore_oneOfSixteen _ c f _
  | feq sg f | flt sg f | fle sg f | funord sg f | fcmp sg f => exact cmpCore_oneOfSixteen f _ _ sg
  | @fcvtFF src dst _ _ => exact cvtFF_oneOfSixteen hP c src _ dst
  | fcvtIF t dst => exact cvtIF_oneOfSixteen hP c dst _
  | fcvtFI trunc src t => exact cvtFI_oneOfSixteen _ c src t _ trunc
  | fclass f | fsnan f => exact oneOfSixteen_zero

/-- Settles O14, family by family. -/
theorem flagsOfOneCommandAreOfSixteenSets : Obligations.FlagsOfOneCommandAreOfSixteenSets := by
  intro i s hready
  obtain ⟨c, hr⟩ := hready.exists_context
  obtain ⟨op, hop⟩ := exists_computes i
  exact ⟨_, hop.completes hr, hop.oneOfSixteen c _ _⟩

end Sys2Proof.Machine
end

section
/-! PROOFS. The restoring of a saved state (70_reset_and_hazards.md R274): four host writes. -/

namespace Sys2Proof.Machine

/-- A host write is one step of a run. -/
theorem runsTo_wr {k n : Nat} {v : Word80} {rest : List HostEvent} {s t u : State}
    (hscript : s.script = .wr n v :: rest) (hwrite : hostWrite n v { s with script := rest } = .next t)
    (hrest : RunsTo k t u) : RunsTo (k + 1) s u := by
  have hstep : step s = .next t := (step_eq_perform hscript).trans hwrite
  simp only [RunsTo, Host.Core.run, core, hstep]
  exact hrest

/-- A mask keeps a value that has no bit outside it. -/
theorem and_mask_of_and_reserved {n : Nat} {w mask reserved : BitVec n} (hcover : mask ||| reserved = BitVec.allOnes n)
    (h : w &&& reserved = 0#n) : w &&& mask = w := by
  calc w &&& mask = w &&& mask ||| w &&& reserved := by rw [h, BitVec.or_zero]
    _ = w &&& (mask ||| reserved) := (BitVec.and_or_distrib_left ..).symm
    _ = w := by rw [hcover, BitVec.and_allOnes]

/-- A 16-bit register takes a value carried at 80 bits back whole. -/
theorem setWidth_setWidth_word (w : Word16) : (w.setWidth 80).setWidth 16 = w := by
  rw [BitVec.setWidth_setWidth_of_le _ (by decide), BitVec.setWidth_eq]

theorem hostWrite_ctrl_of_saved {ctrl : Word16} (h : ctrl &&& 0xFFC0#16 = 0#16) (s : State) :
    hostWrite 3 (ctrl.setWidth 80) s = .next { s with ctrl := ctrl } := by
  rw [hostWrite, writeCtrl, setWidth_setWidth_word, and_mask_of_and_reserved (mask := ctrlMask) (by decide) h]

theorem hostWrite_flags_of_saved {flags : Word16} (h : flags &&& 0xFDC0#16 = 0#16) (s : State) :
    hostWrite 4 (flags.setWidth 80) s = .next { s with flags := flags } := by
  rw [hostWrite, writeFlags, setWidth_setWidth_word, and_mask_of_and_reserved (mask := flagsMask) (by decide) h]

/-- Settles O23, write by write: CTRL and FLAGS lose only reserved bits, which a saved value does not have. -/
theorem savedRegistersAreRestored : Obligations.SavedRegistersAreRestored := by
  intro opa opb ctrl flags hctrl hflags
  exact runsTo_wr rfl rfl <| runsTo_wr rfl rfl <| runsTo_wr rfl (hostWrite_ctrl_of_saved hctrl _) <|
    runsTo_wr rfl (hostWrite_flags_of_saved hflags _) rfl

end Sys2Proof.Machine
end
